-- ==== Sys2Proof/Word.lean ====
section
/-! DEFINITION. The words the frames of the part carry (10.5, R173), and the top of the ranges the spec names. -/

namespace Sys2Proof

/-- One character of a line, one byte of a frame. -/
abbrev Byte := BitVec 8

/-- A field of two bytes, and the cause and mask words of 10.5. -/
abbrev Word := BitVec 16

/-- A chainage as a frame field carries it: 0 to 4,294,967,295 cm (Conventions, R15). -/
abbrev ChainageField := BitVec 32

/-- A marker id as the marker message carries it (R174). -/
abbrev MarkerIdField := BitVec 24

/-- The greatest chainage, in cm. -/
def maxChainage : Nat := 4294967295

/-- The top of RP and of the distances, in 1/256 cm (R1, R2, R3). -/
def topPosition : Nat := maxChainage * 256

/-- Where the 16-bit counts saturate (R1, R67, R172). -/
def maxCount : Nat := 65535

end Sys2Proof
end

