-- ==== Sys2Proof/Syntax.lean ====
section
/-! DEFINITION. The commands and events the part takes: one constructor of Instr per row of spec/opcode_table.json,
with what the row carries. -/

namespace Sys2Proof

/-- Whether forward motion raises or lowers chainage (R1). -/
inductive TravelSense where
  | ascending
  | descending
  deriving DecidableEq, Repr

/-- The two ends of the formation (R85). -/
inductive TrainEnd where
  | endA
  | endB
  deriving DecidableEq, Repr

/-- The direction ODO_DIR gives with a pulse, relative to the travel sense (R2). -/
inductive Direction where
  | forward
  | backward
  deriving DecidableEq, Repr

/-- The intent of an assembly (R44). -/
inductive Intent where
  | new
  | amend
  deriving DecidableEq, Repr

/-- The kind of a record (R20). -/
inductive RecordKind where
  | curve
  | limit
  deriving DecidableEq, Repr

/-- The side a CURVE leans the bodies towards (R22). -/
inductive Hand where
  | left
  | right
  deriving DecidableEq, Repr

/-- The part of a record that RDREC and RDSLOT return (R62). -/
inductive ReadPart where
  | fields
  | entry
  | exit
  deriving DecidableEq, Repr

/-- A field that carries one of a few named values. The spec gives no numbers for the names, so a value that is none
of them is `other` (log 7). -/
inductive Coded (α : Type) where
  | named (value : α)
  | other
  deriving DecidableEq, Repr

/-- The payload of a link command: its parameters, or a payload shorter or longer than they require (R43, R166;
log 5). -/
inductive Payload (α : Type) where
  | exact (parameters : α)
  | wrongLength
  deriving DecidableEq, Repr

/-- What OPENR carries, in the order its entry lists it (3.2). A presence mark is one bit: R45 gives no case for a mark
whose number is neither 0 nor 1, and the model carries none (its own choice, log 26). -/
structure OpenFields where
  intent : Coded Intent
  key : Word
  kind : Coded RecordKind
  sectionTag : Nat
  e0 : ChainageField
  e1 : ChainageField
  e2 : ChainageField
  e3 : ChainageField
  hand : Coded Hand
  angleOrCap : Nat
  bandPresent : Bool
  vZero : Word
  vFull : Word
  nIn : Nat
  nOut : Nat
  markerPresent : Bool
  markerId : Nat
  markerPosition : ChainageField
  deriving DecidableEq, Repr

/-- What SETFIX carries: the fix window in cm and the fix interval limit in m (R16). -/
structure FixFields where
  window : Nat
  intervalLimit : Nat
  deriving DecidableEq, Repr

/-- What WDRAW carries (3.3). -/
structure WithdrawFields where
  key : Word
  force : Nat
  deriving DecidableEq, Repr

/-- What WDSECT carries (3.3). -/
structure SectionFields where
  tag : Nat
  mask : Nat
  force : Nat
  deriving DecidableEq, Repr

/-- What RDREC carries (R62). -/
structure ReadKeyFields where
  key : Word
  part : Coded ReadPart
  deriving DecidableEq, Repr

/-- What RDSLOT carries (R62). -/
structure ReadSlotFields where
  slot : Nat
  part : Coded ReadPart
  deriving DecidableEq, Repr

/-- What SETCYC carries: the period in ms and the horizon setting in m (R70). -/
structure CycleFields where
  period : Nat
  horizon : Nat
  deriving DecidableEq, Repr

/-- What SETTRAV carries (R90). -/
structure OrientationFields where
  travel : Coded TravelSense
  lead : Coded TrainEnd
  deriving DecidableEq, Repr

/-- What SETLIM carries, in its order (6.6, R115). -/
structure LimitFields where
  slew : Nat
  gangway : Nat
  doubtCap : Nat
  vZero : Nat
  vFull : Nat
  previewStep : Nat
  deriving DecidableEq, Repr

/-- The levels on the strap pins when they are sampled (R118, R161). -/
structure Straps where
  laddr : BitVec 6
  lrate : BitVec 2
  trate : Bool
  deriving DecidableEq, Repr

/-- The commands and events of the opcode table. A link command carries its frame's parameters. SETCOMP and LDPLAN
carry their payload bytes, laid out in 10.5. A character or byte row carries the value taken and whether its stop bit
was at the stop-bit level. -/
inductive Instr where
  -- mode commands (chapter 11)
  | start (p : Payload Unit)
  | run (p : Payload Unit)
  | stby (p : Payload Unit)
  | hold (p : Payload Nat)
  | stop (p : Payload Unit)
  | reset (p : Payload Unit)
  | rdstat (p : Payload Unit)
  -- position commands (chapter 1)
  | setcal (p : Payload Nat)
  | setpos (p : Payload ChainageField)
  | setfix (p : Payload FixFields)
  | rdpos (p : Payload Unit)
  -- record commands (chapter 3)
  | openr (p : Payload OpenFields)
  | putp (p : Payload (List Word))
  | contp (p : Payload (List Word))
  | closer (p : Payload Unit)
  | abandr (p : Payload Unit)
  | wdraw (p : Payload WithdrawFields)
  | wdsect (p : Payload SectionFields)
  | clrtab (p : Payload Unit)
  | rdrec (p : Payload ReadKeyFields)
  | rdslot (p : Payload ReadSlotFields)
  | findat (p : Payload ChainageField)
  | tsum (p : Payload Unit)
  | cover (p : Payload ChainageField)
  -- settings and reads of the other blocks (chapters 4 to 10)
  | setcyc (p : Payload CycleFields)
  | setcomp (payload : List Byte)
  | settrav (p : Payload OrientationFields)
  | rdcomp (p : Payload Unit)
  | setlim (p : Payload LimitFields)
  | rdcar (p : Payload Nat)
  | setbus (p : Payload Nat)
  | ldplan (payload : List Byte)
  | canplan (p : Payload Unit)
  | canstby (p : Payload Unit)
  | xchg (p : Payload Nat)
  | canxchg (p : Payload Unit)
  | rdxchg (p : Payload Unit)
  | restore (p : Payload Nat)
  | rdatt (p : Payload Unit)
  | setmask (p : Payload Word)
  -- odometer, markers and the two distances that run out (chapters 1, 10, 11)
  | odometerPulse (direction : Direction)
  | fixIntervalExpiry
  | holdExpiry
  | markerStrobe
  | markerMessage (byte : Byte) (stopOk : Bool)
  | markerMessageCutShort
  -- the cycle (chapter 4)
  | fence
  -- the tilt bus (chapters 7 and 8)
  | planEntryServed
  | manualExchangeStart
  | frameSent
  | replyReceived (byte : Byte) (stopOk : Bool)
  | replyCutShort
  | replyTimeout
  | settlingDone
  -- the route link (chapter 10)
  | frameClosed (stopOk : Bool)
  | frameAborted (stopOk : Bool)
  | answerSent
  -- resets (chapter 11)
  | softwareReset
  | pinReset (straps : Straps)
  | powerOn (straps : Straps)
  -- bytes and edges inside a frame, a reply or a message
  | replyStartBit
  | replyByteTaken (byte : Byte) (stopOk : Bool)
  | linkCharacter (char : Byte) (stopOk : Bool)
  | markerByte (byte : Byte) (stopOk : Bool)
  | resetNRelease
  deriving DecidableEq, Repr

end Sys2Proof
end

