-- ==== Sys2Proof/Machine/Types.lean ====
section
/-! DEFINITION. The plain data the blocks of the part hold, one type for each thing the spec names (R1, R19, R26, R44,
R67, R85, R97, R119, R133, R150, R168, R175), and what an answer carries (R167). -/

namespace Sys2Proof.Machine

/-! ### Modes, lock and position -/

/-- The modes of the part (R175). -/
inductive Mode where
  | config
  | standby
  | running
  | hold
  deriving DecidableEq, Repr

/-- The Position Unit's judgement of RP (R11). -/
inductive Lock where
  | noFix
  | locked
  | doubt
  deriving DecidableEq, Repr

/-- The lead position P (cm), speed (cm/s) and lock taken at a fence (R5). -/
structure Snapshot where
  lead : Nat
  speed : Nat
  lock : Lock
  deriving DecidableEq, Repr

/-- A marker message in reception: its bytes so far, oldest first, and whether one had a bad stop bit (R174). -/
structure MarkerReception where
  bytes : List Byte
  stopBad : Bool
  deriving DecidableEq, Repr

/-! ### Records and slots -/

/-- A record's marker: id and chainage (R25). -/
structure Marker where
  id : Nat
  position : Nat
  deriving DecidableEq, Repr

/-- A speed band (R23). -/
structure Band where
  vZero : Nat
  vFull : Nat
  deriving DecidableEq, Repr

/-- What a CURVE carries beyond the fields of both kinds (R21, R23, R24). An absent profile is the empty list. -/
structure Curve where
  e1 : Nat
  e2 : Nat
  hand : Hand
  angle : Nat
  band : Option Band
  entry : List Nat
  exit : List Nat
  deriving DecidableEq, Repr

/-- What a record carries for its kind (R20, R21). -/
inductive Body where
  | curve (c : Curve)
  | limit (cap : Nat)
  deriving DecidableEq, Repr

/-- A record, as a live or a pending image holds it (R21 to R25). -/
structure Record where
  key : Nat
  sectionTag : Nat
  e0 : Nat
  e3 : Nat
  body : Body
  marker : Option Marker
  deriving DecidableEq, Repr

/-- A slot's staged change (R26). -/
inductive PendingChange where
  | none
  | image (r : Record)
  | withdrawal
  deriving DecidableEq, Repr

/-- The position status of a live image (R26). -/
inductive PositionStatus where
  | armed
  | active
  deriving DecidableEq, Repr

/-- The state of a slot, which follows from what it holds (R27). -/
inductive SlotState where
  | free
  | staged
  | armed
  | active
  | fading
  deriving DecidableEq, Repr

/-- One slot of the Curve Table (R26). `fade` is the fading mark with its level: none when the mark is clear. -/
structure Slot where
  live : Option Record
  pending : PendingChange
  status : PositionStatus
  fade : Option Nat
  overwritten : Bool
  confirmed : Bool
  publishedAt : Option Nat
  activatedAt : Option Nat
  confirmedAt : Option Nat
  deriving DecidableEq, Repr

/-- A stretch of track [e0, e3) handed to the Demand Unit (R81). -/
structure Extent where
  e0 : Nat
  e3 : Nat
  deriving DecidableEq, Repr

/-- What a CURVE assembly carries beyond the fields of both kinds, the values of its profiles apart (R44). -/
structure CurveDraft where
  e1 : Nat
  e2 : Nat
  hand : Hand
  angle : Nat
  band : Option Band
  nIn : Nat
  nOut : Nat
  deriving DecidableEq, Repr

/-- What an assembly carries for its kind. A LIMIT declares no profile values (R24, R45). -/
inductive BodyDraft where
  | curve (c : CurveDraft)
  | limit (cap : Nat)
  deriving DecidableEq, Repr

/-- The record being assembled (R44). `values` holds the written places 0 up to the written count, so its length is the
written count; the places from there on are unwritten. -/
structure Assembly where
  intent : Intent
  key : Nat
  sectionTag : Nat
  e0 : Nat
  e3 : Nat
  body : BodyDraft
  marker : Option Marker
  values : List Nat
  writePosition : Nat
  deriving DecidableEq, Repr

/-! ### Composition and demand -/

/-- One car of the composition: tilt bus address and offset from end A (R85). -/
structure Car where
  address : Nat
  offset : Nat
  deriving DecidableEq, Repr

/-- The composition (R85): the cars in order from end A. -/
structure Composition where
  cars : List Car
  length : Nat
  reader : Nat
  deriving DecidableEq, Repr

/-- The limit settings (R97, R115). -/
structure Limits where
  slew : Nat
  gangway : Nat
  doubtCap : Nat
  band : Band
  previewStep : Nat
  deriving DecidableEq, Repr

/-- The condition a car reports (R120). -/
inductive Condition where
  | ready
  | slow
  | fault
  deriving DecidableEq, Repr

/-- A latched flag with its delivered mark (R97). -/
structure LatchedFlag where
  latched : Bool
  delivered : Bool
  deriving DecidableEq, Repr

/-- The output state of one car index (R97). -/
structure CarOutput where
  lastSent : Int
  changed : LatchedFlag
  fixed : LatchedFlag
  actual : Int
  condition : Option Condition
  deriving DecidableEq, Repr

/-- A car's standing (R150). -/
inductive HealthState where
  | served
  | limited
  | cutOut
  | recovering
  deriving DecidableEq, Repr

/-- What the Health Unit holds for one car index (R150). -/
structure CarHealth where
  state : HealthState
  counter : Nat
  recovery : Nat
  deriving DecidableEq, Repr

/-! ### The tilt bus, plans and manual exchange -/

/-- What the bus is doing (R119). -/
inductive BusPhase where
  | idle
  | sending
  | awaiting
  | receiving
  | settling
  deriving DecidableEq, Repr

/-- The judgement of an exchange (R125). -/
inductive ExchangeOutcome where
  | good
  | fault
  | bad
  | timeout
  deriving DecidableEq, Repr

/-- What an exchange is made for (R119). -/
inductive Origin where
  | plan
  | manual
  deriving DecidableEq, Repr

/-- The kind of frame an exchange sends, which fixes the reply it calls for: STATUS of 7 bytes for a setpoint frame,
DETAIL of 20 bytes for an inquiry (R119, R120). -/
inductive FrameKind where
  | setpoint
  | inquiry
  deriving DecidableEq, Repr

/-- The exchange in flight (R119). `voided` is set by a SETCOMP taken since its start: its outcome is then taken and
not applied (R89; log 22). -/
structure Exchange where
  origin : Origin
  car : Nat
  address : Nat
  kind : FrameKind
  timeout : Nat
  received : List Byte
  framingError : Bool
  voided : Bool
  deriving DecidableEq, Repr

/-- The flags of a setpoint frame (R109). -/
structure FrameFlags where
  holding : Bool
  doubt : Bool
  limited : Bool
  cutOut : Bool
  changed : Bool
  fixed : Bool
  beyond : Bool
  deriving DecidableEq, Repr

/-- A frame the part puts on the tilt bus (R120): the values of a setpoint frame are the setpoint and then the preview
values (R107). -/
inductive TiltFrame where
  | setpoint (address : Nat) (flags : FrameFlags) (values : List Int)
  | inquiry (address : Nat)
  deriving DecidableEq, Repr

/-- An entry of a plan (R133). -/
structure PlanEntry where
  car : Nat
  span : Nat
  deriving DecidableEq, Repr

/-- The manual slot (R133). -/
inductive ManualSlot where
  | empty
  | waiting (car : Nat)
  | inFlight (car : Nat)
  deriving DecidableEq, Repr

/-- A manual result (R133). -/
structure ManualResult where
  car : Nat
  outcome : ExchangeOutcome
  words : List Word
  lost : Bool
  deriving DecidableEq, Repr

/-- The result record: EMPTY, or a result that is UNREAD or READ (R133). -/
inductive ResultRecord where
  | empty
  | unread (r : ManualResult)
  | read (r : ManualResult)
  deriving DecidableEq, Repr

/-! ### The route link -/

/-- The phase of the link receiver (R162). -/
inductive ReceiverPhase where
  | hunt
  | frame
  | escape
  deriving DecidableEq, Repr

/-- The link receiver: its phase, the content kept (at most 64 bytes), the content counted whole, and whether a
character of the frame had a bad stop bit (R161, R162). -/
structure Receiver where
  phase : ReceiverPhase
  content : List Byte
  count : Nat
  stopBad : Bool
  deriving DecidableEq, Repr

/-- The phase of the port's answer side (R165). -/
inductive PortPhase where
  | idle
  | acting
  | answering
  deriving DecidableEq, Repr

/-- The commands of the command code table (10.5). -/
inductive CommandCode where
  | start | run | stby | hold | stop | reset | rdstat
  | setcal | setpos | setfix | rdpos
  | openr | putp | contp | closer | abandr | wdraw | wdsect | clrtab | rdrec | rdslot | findat | tsum | cover
  | setcyc
  | setcomp | settrav | rdcomp | setlim | rdcar
  | setbus | ldplan | canplan | canstby | xchg | canxchg | rdxchg
  | restore
  | rdatt | setmask
  deriving DecidableEq, Repr

/-- What the receive buffer holds: the content of the frame taken, or, for a command row taken from the queue while the
port was IDLE, the command whose frame it stands for (R165; log 24). -/
inductive Buffered where
  | frame (content : List Byte)
  | command (code : CommandCode)
  deriving DecidableEq, Repr

/-- The result codes (10.5). -/
inductive ResultCode where
  | done | replaced | already
  | wrongMode | badParam | unknownCommand | notTaken
  | noSuchKey | keyInUse | markerInUse | overlap | behind | tableFull | poolFull
  | assemblyOpen | noAssembly | incomplete | badProfile | inUse | fading | withdrawn
  | slotTaken | tooLate | noResult
  | noComposition
  deriving DecidableEq, Repr

/-- The status byte of an answer (10.5). -/
structure AnswerStatus where
  frameOk : Bool
  checkOk : Bool
  aborted : Bool
  tooLong : Bool
  deriving DecidableEq, Repr

/-- The attention causes but CARS, which is a bitmap of its own (R168). -/
inductive Cause where
  | retired | horizonShort | poolLow | fadeDone
  | lockChanged | fixRejected | markerUnmatched | markerOverrun
  | overrun | swapped | manualDone
  | frameDropped | frameBad
  | modeChanged
  deriving DecidableEq, Repr

/-- Whether a software reset waits (R166, R183; log 14): `answering` from RESET until its answer has been sent, then
`due` until it is carried out. -/
inductive ResetStage where
  | none
  | answering
  | due
  deriving DecidableEq, Repr

/-! ### What the answers carry -/

/-- What a WDRAW answered DONE did (R58). -/
inductive WithdrawKind where
  | freed
  | pending
  deriving DecidableEq, Repr

/-- The profile a BAD_PROFILE answer names (R51). -/
inductive ProfileName where
  | entry
  | exit
  deriving DecidableEq, Repr

/-- The reasons of a refused SETCOMP (R87). -/
inductive CompReason where
  | lengthOfPayload | count | address | duplicate | order | trainLength | reader
  deriving DecidableEq, Repr

/-- The reasons of a refused LDPLAN (R135). -/
inductive PlanReason where
  | lengthOfPayload | count | car | span
  deriving DecidableEq, Repr

/-- The number of slots in each state (R65, R184). -/
structure SlotCounts where
  free : Nat
  staged : Nat
  armed : Nat
  active : Nat
  fading : Nat
  deriving DecidableEq, Repr

/-- The answer of RDPOS (R17). -/
structure PositionReport where
  rp : Nat
  lock : Lock
  speed : Nat
  candidateHeld : Bool
  candidateError : Int
  fixDistance : Nat
  unmatched : Nat
  markerOverruns : Nat
  bad : Nat
  deriving DecidableEq, Repr

/-- The pending-change kind a read reports (R63). -/
inductive PendingKind where
  | none
  | image
  | withdrawal
  deriving DecidableEq, Repr

/-- The image a read returned (R62). -/
inductive ImageReturned where
  | live
  | pending
  deriving DecidableEq, Repr

/-- The items every read of a non-FREE slot carries (R63). -/
structure SlotCommon where
  slot : Nat
  key : Nat
  state : SlotState
  pending : PendingKind
  fadeLevel : Nat
  overwritten : Bool
  confirmed : Bool
  image : ImageReturned
  deriving DecidableEq, Repr

/-- The hand field of a FIELDS answer: a CURVE's hand, or the 0 that a LIMIT's is returned as. It is kept apart from the
hands, since the spec gives no numbers for LEFT and RIGHT (R63; log 7). -/
inductive HandField where
  | hand (h : Hand)
  | zero
  deriving DecidableEq, Repr

/-- The items FIELDS adds (R63). -/
structure FieldsReport where
  kind : RecordKind
  sectionTag : Nat
  e0 : Nat
  e1 : Nat
  e2 : Nat
  e3 : Nat
  hand : HandField
  angleOrCap : Nat
  band : Option Band
  nIn : Nat
  nOut : Nat
  marker : Option Marker
  publishedAt : Option Nat
  activatedAt : Option Nat
  confirmedAt : Option Nat
  deriving DecidableEq, Repr

/-- What the part read adds to a slot's answer (R63). -/
inductive PartReport where
  | fields (f : FieldsReport)
  | entry (values : List Nat)
  | exit (values : List Nat)
  deriving DecidableEq, Repr

/-- One entry of a FINDAT answer (R64). -/
structure FoundRecord where
  key : Nat
  kind : RecordKind
  state : SlotState
  deriving DecidableEq, Repr

/-- The assembly as TSUM reports it (R65). -/
structure AssemblyReport where
  intent : Intent
  key : Nat
  written : Nat
  deriving DecidableEq, Repr

/-- The answer of TSUM (R65). -/
structure TableReport where
  counts : SlotCounts
  pendingImages : Nat
  pendingWithdrawals : Nat
  poolFree : Nat
  assembly : Option AssemblyReport
  coverage : Option Nat
  horizon : Option Int
  bitmap : List Bool
  deriving DecidableEq, Repr

/-- One car of an RDCOMP answer (R95). -/
structure CarReport where
  index : Nat
  address : Nat
  offset : Nat
  effective : Nat
  deriving DecidableEq, Repr

/-- The answer of RDCOMP (R95). -/
structure CompositionReport where
  travel : TravelSense
  lead : TrainEnd
  count : Nat
  cars : List CarReport
  length : Nat
  reader : Nat
  effectiveReader : Nat
  rearCar : Nat
  deriving DecidableEq, Repr

/-- The answer of RDCAR (R116). -/
structure CarStateReport where
  inComposition : Bool
  address : Nat
  output : CarOutput
  health : CarHealth
  deriving DecidableEq, Repr

/-- The result record as RDSTAT reports it (R148). -/
inductive ResultStanding where
  | empty
  | unread
  | read
  deriving DecidableEq, Repr

/-- The plan state of RDSTAT (R148). -/
structure PlanReport where
  activeCount : Nat
  standbyReady : Bool
  standbyCount : Nat
  pass : Option Nat
  manual : ManualSlot
  result : ResultStanding
  inFlight : Option (Origin × Nat)
  overruns : Nat
  deriving DecidableEq, Repr

/-- The answer of RDSTAT (R184). -/
structure StatusReport where
  mode : Mode
  lock : Lock
  counts : SlotCounts
  timerRunning : Bool
  period : Nat
  plan : PlanReport
  holdDistance : Nat
  holdLeft : Int
  deriving DecidableEq, Repr

/-- The answer of RDATT (R170). -/
structure AttentionReport where
  causeWord : Word
  cars : Word
  masks : Word
  taken : Nat
  notTaken : Nat
  dropped : Nat
  deriving DecidableEq, Repr

/-- What an answer's payload carries, one form for each command entry that names one. -/
inductive AnswerPayload where
  /-- No payload. -/
  | empty
  /-- One count or value (R46, R51, R88, R135, R180). -/
  | value (n : Nat)
  /-- A slot number (R52, R53, R58). -/
  | slot (n : Nat)
  /-- The slot and the lowest other slot its live image conflicts with (R58). -/
  | slotClash (n other : Nat)
  /-- The slot and the kind of withdrawal (R58). -/
  | withdrawal (n : Nat) (kind : WithdrawKind)
  /-- The slot and the pool free count after CLOSER (R55, R56). -/
  | staged (n free : Nat)
  /-- Values written, values ignored, places unwritten (R47). -/
  | written (written ignored unwritten : Nat)
  /-- The profile and place of BAD_PROFILE (R51). -/
  | profilePlace (which : ProfileName) (place : Nat)
  /-- The points needed and available (R54). -/
  | points (needed available : Nat)
  /-- The three counts of CLRTAB (R61). -/
  | cleared (freed withdrawn left : Nat)
  /-- The four counts of WDSECT (R60). -/
  | sectionCounts (withdrawn inUse clash already : Nat)
  /-- The reason and car index of a refused SETCOMP (R87). -/
  | compReason (reason : CompReason) (car : Nat)
  /-- The reason and entry position of a refused LDPLAN (R135). -/
  | planReason (reason : PlanReason) (position : Nat)
  /-- RDPOS (R17). -/
  | position (r : PositionReport)
  /-- RDSLOT of a FREE slot (R62). -/
  | freeSlot (n : Nat)
  /-- RDREC and RDSLOT of any other slot (R63). -/
  | record (c : SlotCommon) (part : PartReport)
  /-- FINDAT (R64). -/
  | found (entries : List FoundRecord) (truncated : Bool) (rawDemand : Int)
  /-- TSUM (R65). -/
  | table (r : TableReport)
  /-- RDCOMP (R95). -/
  | composition (r : CompositionReport)
  /-- RDCAR (R116). -/
  | car (r : CarStateReport)
  /-- SETBUS: the timeout now held, and whether the bus runs at 2 Mbit/s (R131). -/
  | bus (timeout : Nat) (fast : Bool)
  /-- RDXCHG (R147). -/
  | manual (r : ManualResult)
  /-- RESTORE: the car, its health state after the command and its recovery count (R155). -/
  | restored (car : Nat) (state : HealthState) (recovery : Nat)
  /-- RDATT (R170). -/
  | attention (r : AttentionReport)
  /-- SETMASK: the masks now held (R171). -/
  | masks (w : Word)
  /-- RDSTAT (R184). -/
  | status (r : StatusReport)
  deriving DecidableEq, Repr

/-- The answer in progress (R167): its command code byte, status, result and payload. The address byte follows from
LADDR, and the check from the bytes before it. -/
structure Answer where
  code : Byte
  status : AnswerStatus
  result : ResultCode
  payload : AnswerPayload
  deriving DecidableEq, Repr

end Sys2Proof.Machine
end

