-- ==== Sys2Proof/Config.lean ====
section
/-! DEFINITION. The free values of the model: what the spec leaves open and never states. Each is a constant without a
body, so no proof can rest on a value of it. -/

namespace Sys2Proof

/-- Whether a flag whose own stop bit is bad marks the frame it closes as failing its check. R161 says that such a
character marks "the frame it falls in", and a flag stands between two frames (log 9). -/
opaque Config.badFlagMarksClosedFrame : Bool

/-- Whether a flag whose own stop bit is bad marks the frame it opens as failing its check (R161; log 9). -/
opaque Config.badFlagMarksOpenedFrame : Bool

/-- The bytes of an answer payload whose layout 10.5 does not give (log 8). -/
opaque Config.answerPayloadBytes : Machine.AnswerPayload → List Byte

end Sys2Proof
end

