-- ==== Sys2Proof/Machine/State.lean ====
section
/-! DEFINITION. The state of the part, block by block, as plain data, and its value after power-on. -/

namespace Sys2Proof.Machine

/-- The Position Unit (R1). `rp`, `cycleDistance` and `fixDistance` are counts of 1/256 cm. -/
structure PositionUnit where
  rp : Nat
  calibration : Nat
  travel : TravelSense
  cycleDistance : Int
  firstFence : Bool
  fixDistance : Nat
  latch : Option Int
  candidate : Option Int
  lock : Lock
  window : Nat
  intervalLimit : Nat
  snapshot : Snapshot
  unmatched : Nat
  markerOverruns : Nat
  bad : Nat
  reception : Option MarkerReception
  deriving DecidableEq, Repr

/-- The Curve Table (R19). `reach` and `changedExtents` are what the last fence formed and handed on (R81, R83; log
18). -/
structure CurveTable where
  slots : List Slot
  poolFree : Nat
  assembly : Option Assembly
  coverage : Option Nat
  bitmap : List Bool
  horizonSetting : Nat
  horizonShort : Bool
  reach : Option Nat
  changedExtents : List Extent
  deriving DecidableEq, Repr

/-- The Cycle Timer (R67). `fencePulses` counts the pulses on the FENCE pin (R69; log 19). -/
structure CycleTimer where
  period : Nat
  running : Bool
  cycleLength : Option Nat
  overruns : Nat
  fencePulses : Nat
  deriving DecidableEq, Repr

/-- The Demand Unit (R85, R97). `cars` holds the 16 car indices in order. -/
structure DemandUnit where
  composition : Option Composition
  lead : TrainEnd
  limits : Limits
  cars : List CarOutput
  deriving DecidableEq, Repr

/-- The Poll Engine (R119, R133). `standby` is none when the standby plan is not ready, and a plan that is not ready
holds no entries; `frame` is the frame last put on TBUS_TX (log 20). -/
structure PollEngine where
  phase : BusPhase
  replyTimeout : Nat
  exchange : Option Exchange
  frame : Option TiltFrame
  active : List PlanEntry
  standby : Option (List PlanEntry)
  pass : Option Nat
  manual : ManualSlot
  result : ResultRecord
  deriving DecidableEq, Repr

/-- The Route Link Port (R162, R165, R168, R172). `causes` is the cause word of 10.5 with bit 8 clear: CARS is the
bitmap `cars`. -/
structure LinkPort where
  receiver : Receiver
  phase : PortPhase
  buffer : Option Buffered
  answer : Option Answer
  taken : Nat
  notTaken : Nat
  dropped : Nat
  causes : Word
  cars : Word
  masks : Word
  deriving DecidableEq, Repr

/-- Mode Control (R175), with the software reset that RESET arranges (R183; log 14). -/
structure ModeControl where
  mode : Mode
  holdDistance : Nat
  holdTravelled : Nat
  resetStage : ResetStage
  deriving DecidableEq, Repr

/-- The whole part: its blocks, the straps as sampled, whether RESET_N is held low, and the commands and events that
are waiting, first in first out. -/
structure State where
  position : PositionUnit
  table : CurveTable
  timer : CycleTimer
  demand : DemandUnit
  poll : PollEngine
  health : List CarHealth
  link : LinkPort
  mode : ModeControl
  straps : Straps
  resetHeld : Bool
  pending : List Instr
  deriving DecidableEq, Repr

/-- The reasons the part stops. The spec names none: every row gives a next state, so there is nothing to declare. -/
inductive Fault where
  deriving DecidableEq, Repr

/-- Why a row has no meaning. -/
inductive Refusal where
  /-- Raised by exec's arm of a row that has no meaning yet; safe, since nothing is claimed of that row. No arm raises
  it now. -/
  | notModelled (mnemonic : String)
  deriving DecidableEq, Repr

/-! ### One update per field of State -/

/-- The state with its Position Unit replaced. -/
def State.setPosition (s : State) (x : PositionUnit) : State := { s with position := x }
/-- The state with its Curve Table replaced. -/
def State.setTable (s : State) (x : CurveTable) : State := { s with table := x }
/-- The state with its Cycle Timer replaced. -/
def State.setTimer (s : State) (x : CycleTimer) : State := { s with timer := x }
/-- The state with its Demand Unit replaced. -/
def State.setDemand (s : State) (x : DemandUnit) : State := { s with demand := x }
/-- The state with its Poll Engine replaced. -/
def State.setPoll (s : State) (x : PollEngine) : State := { s with poll := x }
/-- The state with its Health Unit replaced. -/
def State.setHealth (s : State) (x : List CarHealth) : State := { s with health := x }
/-- The state with its Route Link Port replaced. -/
def State.setLink (s : State) (x : LinkPort) : State := { s with link := x }
/-- The state with its Mode Control replaced. -/
def State.setMode (s : State) (x : ModeControl) : State := { s with mode := x }
/-- The state with its RESET_N level replaced. -/
def State.setResetHeld (s : State) (x : Bool) : State := { s with resetHeld := x }
/-- The state with its queue replaced. -/
def State.setPending (s : State) (x : List Instr) : State := { s with pending := x }

/-! ### The values after power-on -/

/-- R18, column of power-on and the pin reset; no message is in reception (log 13). -/
def PositionUnit.powerOn : PositionUnit where
  rp := 0
  calibration := 256
  travel := .ascending
  cycleDistance := 0
  firstFence := false
  fixDistance := 0
  latch := none
  candidate := none
  lock := .noFix
  window := 300
  intervalLimit := 0
  snapshot := { lead := 0, speed := 0, lock := .noFix }
  unmatched := 0
  markerOverruns := 0
  bad := 0
  reception := none

/-- A FREE slot (R28, R41). Its position status has no effect and is held at ARMED (log 17). -/
def Slot.freed : Slot where
  live := none
  pending := .none
  status := .armed
  fade := none
  overwritten := false
  confirmed := false
  publishedAt := none
  activatedAt := none
  confirmedAt := none

/-- The number of slots (R19). -/
def slotCount : Nat := 64

/-- The points of the pool (R37). -/
def poolSize : Nat := 512

/-- R41, the same after each kind of reset. -/
def CurveTable.empty : CurveTable where
  slots := List.replicate slotCount Slot.freed
  poolFree := poolSize
  assembly := none
  coverage := none
  bitmap := List.replicate slotCount false
  horizonSetting := 0
  horizonShort := false
  reach := none
  changedExtents := []

/-- R72, column of power-on and the pin reset. -/
def CycleTimer.powerOn : CycleTimer where
  period := 20
  running := false
  cycleLength := none
  overruns := 0
  fencePulses := 0

/-- A flag that is clear, with its mark clear (R117). -/
def LatchedFlag.clear : LatchedFlag where
  latched := false
  delivered := false

/-- The per-car output state that every reset and SETCOMP set (R88, R117). -/
def CarOutput.clear : CarOutput where
  lastSent := 0
  changed := .clear
  fixed := .clear
  actual := 0
  condition := none

/-- The number of car indices (R97, R150). -/
def carIndices : Nat := 16

/-- R96 and R117, column of power-on and the pin reset. -/
def DemandUnit.powerOn : DemandUnit where
  composition := none
  lead := .endA
  limits := { slew := 25, gangway := 300, doubtCap := 200, band := { vZero := 1500, vFull := 3500 }, previewStep := 1000 }
  cars := List.replicate carIndices CarOutput.clear

/-- R132 and R149, column of power-on and the pin reset. -/
def PollEngine.powerOn : PollEngine where
  phase := .idle
  replyTimeout := 300
  exchange := none
  frame := none
  active := []
  standby := none
  pass := none
  manual := .empty
  result := .empty

/-- The health that every reset and SETCOMP set for each car index (R88, R160). -/
def CarHealth.clear : CarHealth where
  state := .served
  counter := 0
  recovery := 0

/-- R160 for all 16 indices. -/
def healthClear : List CarHealth := List.replicate carIndices CarHealth.clear

/-- A receiver that hunts for a flag: no frame is in reception (R162, R172). -/
def Receiver.hunting : Receiver where
  phase := .hunt
  content := []
  count := 0
  stopBad := false

/-- R172, column of power-on and the pin reset. -/
def LinkPort.powerOn : LinkPort where
  receiver := .hunting
  phase := .idle
  buffer := none
  answer := none
  taken := 0
  notTaken := 0
  dropped := 0
  causes := 0
  cars := 0
  masks := 0

/-- R175, column of power-on and the pin reset. -/
def ModeControl.powerOn : ModeControl where
  mode := .config
  holdDistance := 0
  holdTravelled := 0
  resetStage := .none

/-- The state right after power-on with the straps all low, RESET_N released and nothing waiting (R183; logs 11 and
12). -/
def State.reset : State where
  position := .powerOn
  table := .empty
  timer := .powerOn
  demand := .powerOn
  poll := .powerOn
  health := healthClear
  link := .powerOn
  mode := .powerOn
  straps := { laddr := 0, lrate := 0, trate := false }
  resetHeld := false
  pending := []

end Sys2Proof.Machine
end

