-- ==== Sys2Proof/Machine/Flags.lean ====
section
/-! DEFINITION. Every flag computation: attention causes, masks and ATTN_N (R168 to R171), the flags byte of a setpoint
frame (R109), the status byte of an answer (10.5), and the codes of conditions, results and commands (10.5). -/

namespace Sys2Proof.Machine

/-- One more, held at 65,535 (R1, R67, R172). -/
def bump (n : Nat) : Nat := min (n + 1) maxCount

/-! ### Attention -/

/-- The place of a cause in the cause word and the mask word (10.5). -/
def Cause.bit : Cause → Nat
  | .retired => 0
  | .horizonShort => 1
  | .poolLow => 2
  | .fadeDone => 3
  | .lockChanged => 4
  | .fixRejected => 5
  | .markerUnmatched => 6
  | .markerOverrun => 7
  | .overrun => 9
  | .swapped => 10
  | .manualDone => 11
  | .frameDropped => 12
  | .frameBad => 13
  | .modeChanged => 14

/-- The place of CARS in the cause word (10.5). -/
def carsBit : Nat := 8

/-- The word with one bit set. -/
def bitWord (n : Nat) : Word := 1#16 <<< n

/-- The bit of a car index in the CARS bitmap: bit k − 1 for car k (10.5). -/
def carWord (k : Nat) : Word := bitWord (k - 1)

/-- A cause raised: it is set, and stays set if it was (R168). -/
def LinkPort.raise (l : LinkPort) (c : Cause) : LinkPort := { l with causes := l.causes ||| bitWord c.bit }

/-- A cause raised where a condition holds. -/
def LinkPort.raiseIf (l : LinkPort) (b : Bool) (c : Cause) : LinkPort := if b then l.raise c else l

/-- The CARS bit of a car index raised (R158). -/
def LinkPort.raiseCar (l : LinkPort) (k : Nat) : LinkPort := { l with cars := l.cars ||| carWord k }

/-- The cause word of 10.5: CARS is set while any bit of its bitmap is (R169). -/
def LinkPort.causeWord (l : LinkPort) : Word := if l.cars = 0 then l.causes else l.causes ||| bitWord carsBit

/-- Whether a cause is set. -/
def LinkPort.isSet (l : LinkPort) (c : Cause) : Bool := l.causes.getLsbD c.bit

/-- Whether ATTN_N is low: one or more causes are set whose mask is clear (R169). -/
def LinkPort.attnLow (l : LinkPort) : Bool := decide (l.causeWord &&& ~~~l.masks ≠ 0)

/-- Every cause and CARS bit cleared (R170, R172). -/
def LinkPort.clearCauses (l : LinkPort) : LinkPort := { l with causes := 0, cars := 0 }

/-- Whether the cause word has a bit of a group set. -/
def groupSet (w group : Word) : Bool := decide (w &&& group ≠ 0)

/-- The group summary byte of RDATT: bit 0 TABLE, 1 POSITION, 2 CARS, 3 PLAN, 4 LINK, 5 MODE (R168, 10.5). -/
def groupSummary (w : Word) : Byte :=
  (if groupSet w 0x000F#16 then 0x01#8 else 0) ||| (if groupSet w 0x00F0#16 then 0x02#8 else 0)
    ||| (if groupSet w 0x0100#16 then 0x04#8 else 0) ||| (if groupSet w 0x0E00#16 then 0x08#8 else 0)
    ||| (if groupSet w 0x3000#16 then 0x10#8 else 0) ||| (if groupSet w 0x4000#16 then 0x20#8 else 0)

/-- A cause raised in the port of a state. -/
def State.raise (s : State) (c : Cause) : State := s.setLink (s.link.raise c)

/-- A cause raised in the port of a state where a condition holds. -/
def State.raiseIf (s : State) (b : Bool) (c : Cause) : State := s.setLink (s.link.raiseIf b c)

/-- Whether ATTN_N is low (R169). -/
def State.attnLow (s : State) : Bool := s.link.attnLow

/-! ### Frame flags and status -/

/-- One bit of a byte. -/
def flagBit (b : Bool) (n : Nat) : Byte := if b then 1#8 <<< n else 0

/-- The flags byte of a setpoint frame (10.5). -/
def FrameFlags.byte (f : FrameFlags) : Byte :=
  flagBit f.holding 0 ||| flagBit f.doubt 1 ||| flagBit f.limited 2 ||| flagBit f.cutOut 3 ||| flagBit f.changed 4
    ||| flagBit f.fixed 5 ||| flagBit f.beyond 6

/-- The status byte of an answer (10.5). -/
def AnswerStatus.byte (t : AnswerStatus) : Byte :=
  flagBit t.frameOk 0 ||| flagBit t.checkOk 1 ||| flagBit t.aborted 2 ||| flagBit t.tooLong 3

/-- The status of an answer to a Taken frame (R164, R167). -/
def AnswerStatus.taken : AnswerStatus where
  frameOk := true
  checkOk := true
  aborted := false
  tooLong := false

/-- The status of an answer to an aborted frame (R164). -/
def AnswerStatus.abortedFrame : AnswerStatus where
  frameOk := false
  checkOk := false
  aborted := true
  tooLong := false

/-- The status of an answer to a frame that is too long (R164). -/
def AnswerStatus.longFrame : AnswerStatus where
  frameOk := false
  checkOk := false
  aborted := false
  tooLong := true

/-- The status of an answer to a frame whose check fails (R164). -/
def AnswerStatus.failedCheck : AnswerStatus where
  frameOk := true
  checkOk := false
  aborted := false
  tooLong := false

/-! ### Codes -/

/-- The condition a reply's field gives: 1 READY, 2 SLOW, 3 FAULT, and no other (10.5, R124). -/
def Condition.ofCode (n : Nat) : Option Condition :=
  if n = 1 then some .ready else if n = 2 then some .slow else if n = 3 then some .fault else none

/-- The value of a result code (10.5). -/
def ResultCode.byte : ResultCode → Byte
  | .done => 0x00#8
  | .replaced => 0x01#8
  | .already => 0x02#8
  | .wrongMode => 0x10#8
  | .badParam => 0x11#8
  | .unknownCommand => 0x12#8
  | .notTaken => 0x13#8
  | .noSuchKey => 0x20#8
  | .keyInUse => 0x21#8
  | .markerInUse => 0x22#8
  | .overlap => 0x23#8
  | .behind => 0x24#8
  | .tableFull => 0x25#8
  | .poolFull => 0x26#8
  | .assemblyOpen => 0x27#8
  | .noAssembly => 0x28#8
  | .incomplete => 0x29#8
  | .badProfile => 0x2A#8
  | .inUse => 0x2B#8
  | .fading => 0x2C#8
  | .withdrawn => 0x2D#8
  | .slotTaken => 0x30#8
  | .tooLate => 0x31#8
  | .noResult => 0x32#8
  | .noComposition => 0x40#8

/-- The code of a command (10.5). -/
def CommandCode.byte : CommandCode → Byte
  | .start => 0x01#8
  | .run => 0x02#8
  | .stby => 0x03#8
  | .hold => 0x04#8
  | .stop => 0x05#8
  | .reset => 0x06#8
  | .rdstat => 0x07#8
  | .setcal => 0x10#8
  | .setpos => 0x11#8
  | .setfix => 0x12#8
  | .rdpos => 0x13#8
  | .openr => 0x20#8
  | .putp => 0x21#8
  | .contp => 0x22#8
  | .closer => 0x23#8
  | .abandr => 0x24#8
  | .wdraw => 0x25#8
  | .wdsect => 0x26#8
  | .clrtab => 0x27#8
  | .rdrec => 0x28#8
  | .rdslot => 0x29#8
  | .findat => 0x2A#8
  | .tsum => 0x2B#8
  | .cover => 0x2C#8
  | .setcyc => 0x30#8
  | .setcomp => 0x40#8
  | .settrav => 0x41#8
  | .rdcomp => 0x42#8
  | .setlim => 0x43#8
  | .rdcar => 0x44#8
  | .setbus => 0x50#8
  | .ldplan => 0x51#8
  | .canplan => 0x52#8
  | .canstby => 0x53#8
  | .xchg => 0x54#8
  | .canxchg => 0x55#8
  | .rdxchg => 0x56#8
  | .restore => 0x60#8
  | .rdatt => 0x70#8
  | .setmask => 0x71#8

/-- Every command of the table (10.5). -/
def CommandCode.all : List CommandCode :=
  [.start, .run, .stby, .hold, .stop, .reset, .rdstat, .setcal, .setpos, .setfix, .rdpos]
    ++ [.openr, .putp, .contp, .closer, .abandr, .wdraw, .wdsect, .clrtab, .rdrec, .rdslot, .findat, .tsum, .cover]
    ++ [.setcyc, .setcomp, .settrav, .rdcomp, .setlim, .rdcar]
    ++ [.setbus, .ldplan, .canplan, .canstby, .xchg, .canxchg, .rdxchg, .restore, .rdatt, .setmask]

/-- The command a code names, none where the code is not in the table (R166). -/
def CommandCode.ofByte (b : Byte) : Option CommandCode := CommandCode.all.find? fun c => c.byte == b

/-- The modes in which a command is taken (R43, R176). -/
def CommandCode.available (c : CommandCode) (m : Mode) : Bool :=
  match c with
  | .start => m = .config
  | .run | .stby => m ≠ .config
  | .hold => m = .running
  | .stop => m ≠ .running
  | .reset | .rdstat => true
  | .setcal => m = .config || m = .standby
  | .setpos => m ≠ .running
  | .setfix | .rdpos => true
  | .openr | .putp | .contp | .closer | .abandr => m ≠ .config
  | .wdraw | .wdsect | .cover => m ≠ .config
  | .clrtab => m = .standby || m = .hold
  | .rdrec | .rdslot | .findat | .tsum => true
  | .setcyc => true
  | .setcomp | .settrav => m = .config
  | .rdcomp | .rdcar => true
  | .setlim => m ≠ .running
  | .setbus | .ldplan => true
  | .canplan | .canstby | .canxchg | .rdxchg => true
  | .xchg | .restore => m ≠ .config
  | .rdatt | .setmask => true

end Sys2Proof.Machine

namespace Sys2Proof

/-- The command of a link command row; none for an event row (10.5). -/
def Instr.code? : Instr → Option Machine.CommandCode
  | .start _ => some .start
  | .run _ => some .run
  | .stby _ => some .stby
  | .hold _ => some .hold
  | .stop _ => some .stop
  | .reset _ => some .reset
  | .rdstat _ => some .rdstat
  | .setcal _ => some .setcal
  | .setpos _ => some .setpos
  | .setfix _ => some .setfix
  | .rdpos _ => some .rdpos
  | .openr _ => some .openr
  | .putp _ => some .putp
  | .contp _ => some .contp
  | .closer _ => some .closer
  | .abandr _ => some .abandr
  | .wdraw _ => some .wdraw
  | .wdsect _ => some .wdsect
  | .clrtab _ => some .clrtab
  | .rdrec _ => some .rdrec
  | .rdslot _ => some .rdslot
  | .findat _ => some .findat
  | .tsum _ => some .tsum
  | .cover _ => some .cover
  | .setcyc _ => some .setcyc
  | .setcomp _ => some .setcomp
  | .settrav _ => some .settrav
  | .rdcomp _ => some .rdcomp
  | .setlim _ => some .setlim
  | .rdcar _ => some .rdcar
  | .setbus _ => some .setbus
  | .ldplan _ => some .ldplan
  | .canplan _ => some .canplan
  | .canstby _ => some .canstby
  | .xchg _ => some .xchg
  | .canxchg _ => some .canxchg
  | .rdxchg _ => some .rdxchg
  | .restore _ => some .restore
  | .rdatt _ => some .rdatt
  | .setmask _ => some .setmask
  | .odometerPulse _ | .fixIntervalExpiry | .holdExpiry | .markerStrobe | .markerMessage _ _ | .markerMessageCutShort
  | .fence | .planEntryServed | .manualExchangeStart | .frameSent | .replyReceived _ _ | .replyCutShort
  | .replyTimeout | .settlingDone | .frameClosed _ | .frameAborted _ | .answerSent | .softwareReset | .pinReset _
  | .powerOn _ | .replyStartBit | .replyByteTaken _ _ | .linkCharacter _ _ | .markerByte _ _ | .resetNRelease => none

end Sys2Proof
end

