-- ==== Sys2Proof/WellFormed.lean ====
section
/-! DEFINITION. Which commands a link frame can carry: payloads of at most 60 bytes (R164), values of two bytes (R47),
numbers that fit a field of at most four bytes (10.5). A row that is no link command carries nothing to check. -/

namespace Sys2Proof

/-- The greatest payload of a frame, in bytes (R164). -/
def maxPayload : Nat := 60

/-- A number that a field of four bytes, the widest of any frame, can carry (10.5; log 6). -/
def fitsField (n : Nat) : Bool := n < 2 ^ 32

/-- The parameters of a payload, where it has them, meet a check. -/
def Payload.meets {α : Type} (p : Payload α) (check : α → Bool) : Bool :=
  match p with
  | .exact a => check a
  | .wrongLength => true

/-- The values of a PUTP or CONTP fit a payload of 60 bytes (R47, R164). -/
def valuesFit (values : List Word) : Bool := 2 * values.length ≤ maxPayload

/-- The number fields of OPENR fit their fields (3.2). -/
def OpenFields.wellFormed (f : OpenFields) : Bool :=
  fitsField f.sectionTag && fitsField f.angleOrCap && fitsField f.nIn && fitsField f.nOut && fitsField f.markerId

/-- The number fields of SETLIM fit their fields (6.6). -/
def LimitFields.wellFormed (f : LimitFields) : Bool :=
  fitsField f.slew && fitsField f.gangway && fitsField f.doubtCap && fitsField f.vZero && fitsField f.vFull
    && fitsField f.previewStep

/-- What the row carries can stand in a frame. -/
def Instr.wellFormed : Instr → Bool
  | .hold p | .setcal p | .rdcar p | .setbus p | .xchg p | .restore p => p.meets fitsField
  | .setfix p => p.meets fun f => fitsField f.window && fitsField f.intervalLimit
  | .openr p => p.meets OpenFields.wellFormed
  | .putp p | .contp p => p.meets valuesFit
  | .wdraw p => p.meets fun f => fitsField f.force
  | .wdsect p => p.meets fun f => fitsField f.tag && fitsField f.mask && fitsField f.force
  | .rdslot p => p.meets fun f => fitsField f.slot
  | .setcyc p => p.meets fun f => fitsField f.period && fitsField f.horizon
  | .setlim p => p.meets LimitFields.wellFormed
  | .setcomp payload | .ldplan payload => payload.length ≤ maxPayload
  | .start _ | .run _ | .stby _ | .stop _ | .reset _ | .rdstat _ | .setpos _ | .rdpos _ | .closer _ | .abandr _
  | .clrtab _ | .rdrec _ | .findat _ | .tsum _ | .cover _ | .settrav _ | .rdcomp _ | .canplan _ | .canstby _
  | .canxchg _ | .rdxchg _ | .rdatt _ | .setmask _
  | .odometerPulse _ | .fixIntervalExpiry | .holdExpiry | .markerStrobe | .markerMessage _ _ | .markerMessageCutShort
  | .fence | .planEntryServed | .manualExchangeStart | .frameSent | .replyReceived _ _ | .replyCutShort
  | .replyTimeout | .settlingDone | .frameClosed _ | .frameAborted _ | .answerSent | .softwareReset | .pinReset _
  | .powerOn _ | .replyStartBit | .replyByteTaken _ _ | .linkCharacter _ _ | .markerByte _ _ | .resetNRelease => true

end Sys2Proof
end

