-- ==== Sys2Proof/Machine/Operands.lean ====
section
/-! DEFINITION. The bytes of every frame: the check (R163), byte order (R173), the payloads of SETCOMP and LDPLAN (R87,
R135), the frames of the tilt bus and their replies (R120, R124), the marker message (R174), and the answer frame
(R167). -/

namespace Sys2Proof.Machine

/-! ### The check -/

/-- One shift of the check register (R163, step 3). -/
def checkShift (r : Word) : Word := if r.msb then (r <<< 1) ^^^ 0x1021#16 else r <<< 1

/-- One byte taken into the check register (R163, steps 2 and 3). -/
def checkByte (r : Word) (b : Byte) : Word :=
  checkShift (checkShift (checkShift (checkShift (checkShift (checkShift (checkShift (checkShift
    (r ^^^ (b.zeroExtend 16 <<< 8)))))))))

/-- The check over bytes, preset to all ones, with no final inversion (R163). -/
def checkOf (bytes : List Byte) : Word := bytes.foldl checkByte 0xFFFF#16

/-! ### Fields, least significant byte first (R173) -/

/-- The two bytes of a field. -/
def wordBytes (w : Word) : List Byte := [w.truncate 8, (w >>> 8).truncate 8]

/-- The two bytes of a signed field, in two's complement. -/
def signedBytes (x : Int) : List Byte := wordBytes (BitVec.ofInt 16 x)

/-- The field of two bytes. -/
def ofBytes (low high : Byte) : Word := high ++ low

/-- The byte at a place; beyond the end, 0. -/
def byteAt (bytes : List Byte) (n : Nat) : Byte := bytes.getD n 0

/-- The field of two bytes at a place. -/
def wordAt (bytes : List Byte) (n : Nat) : Word := ofBytes (byteAt bytes n) (byteAt bytes (n + 1))

/-- The bytes with their check behind them, low byte first (R120, R163). -/
def withCheck (bytes : List Byte) : List Byte := bytes ++ wordBytes (checkOf bytes)

/-- The bytes before the last two. -/
def beforeCheck (bytes : List Byte) : List Byte := bytes.take (bytes.length - 2)

/-- The check that bytes carry agrees with the one formed over those before it (R163). -/
def checkAgrees (bytes : List Byte) : Bool :=
  decide (checkOf (beforeCheck bytes) = wordAt bytes (bytes.length - 2))

/-- The number that bytes carry. -/
def numberOf : List Byte → Nat
  | [] => 0
  | b :: bytes => b.toNat + 256 * numberOf bytes

/-! ### SETCOMP's payload (R87) -/

/-- The cars of a SETCOMP payload, three bytes each. -/
def parseCars : Nat → List Byte → List Car
  | 0, _ => []
  | n + 1, bytes =>
    { address := (byteAt bytes 0).toNat, offset := (wordAt bytes 1).toNat } :: parseCars n (bytes.drop 3)

/-- The index, counted from k, of the first member of a list that meets a check. -/
def firstIndex {α : Type} (check : α → Bool) : Nat → List α → Option Nat
  | _, [] => none
  | k, x :: xs => if check x then some k else firstIndex check (k + 1) xs

/-- The lowest car, counted from k, whose address repeats that of an earlier one. -/
def firstRepeat : List Nat → Nat → List Car → Option Nat
  | _, _, [] => none
  | seen, k, c :: cs => if seen.contains c.address then some k else firstRepeat (c.address :: seen) (k + 1) cs

/-- The lowest car, counted from k, whose offset is not greater than that of the car before it. -/
def firstDisorder : Option Nat → Nat → List Car → Option Nat
  | _, _, [] => none
  | none, k, c :: cs => firstDisorder (some c.offset) (k + 1) cs
  | some before, k, c :: cs => if c.offset ≤ before then some k else firstDisorder (some c.offset) (k + 1) cs

/-- The offset of the last car. -/
def lastOffset (cars : List Car) : Nat := (cars.getLast?.map Car.offset).getD 0

/-- The checks of R87 from the cars on, in the order of its table. -/
def checkComposition (c : Composition) : Except (CompReason × Nat) Composition :=
  match firstIndex (fun car => car.address = 0 || car.address > 126) 1 c.cars with
  | some k => .error (.address, k)
  | none =>
    match firstRepeat [] 1 c.cars with
    | some k => .error (.duplicate, k)
    | none =>
      match firstDisorder none 1 c.cars with
      | some k => .error (.order, k)
      | none =>
        if c.length < lastOffset c.cars || c.length > 60000 then .error (.trainLength, 0)
        else if c.reader > c.length then .error (.reader, 0)
        else .ok c

/-- The composition of a SETCOMP payload, or the reason and car index of its refusal (R87). -/
def parseComposition (payload : List Byte) : Except (CompReason × Nat) Composition :=
  match payload with
  | [] => .error (.lengthOfPayload, 0)
  | count :: rest =>
    let n := count.toNat
    if payload.length ≠ 5 + 3 * n then .error (.lengthOfPayload, 0)
    else if n = 0 || n > 16 then .error (.count, 0)
    else
      checkComposition
        { cars := parseCars n rest
          length := (wordAt payload (1 + 3 * n)).toNat
          reader := (wordAt payload (3 + 3 * n)).toNat }

/-! ### LDPLAN's payload (R135) -/

/-- The entries of a LDPLAN payload, two bytes each. -/
def parseEntries : Nat → List Byte → List PlanEntry
  | 0, _ => []
  | n + 1, bytes => { car := (byteAt bytes 0).toNat, span := (byteAt bytes 1).toNat } :: parseEntries n (bytes.drop 2)

/-- The plan of a LDPLAN payload, or the reason and entry position of its refusal, for a composition of `carCount` cars,
0 where none is held (R135). -/
def parsePlan (carCount : Nat) (payload : List Byte) : Except (PlanReason × Nat) (List PlanEntry) :=
  match payload with
  | [] => .error (.lengthOfPayload, 0)
  | count :: rest =>
    let n := count.toNat
    let entries := parseEntries n rest
    if payload.length ≠ 1 + 2 * n then .error (.lengthOfPayload, 0)
    else if n > 24 then .error (.count, 0)
    else
      match firstIndex (fun e => e.car = 0 || e.car > carCount) 1 entries with
      | some k => .error (.car, k)
      | none =>
        match firstIndex (fun e => e.span > 3) 1 entries with
        | some k => .error (.span, k)
        | none => .ok entries

/-! ### Frames and replies of the tilt bus -/

/-- The bytes of a frame the part sends, its check included (R120, 10.5). -/
def TiltFrame.bytes : TiltFrame → List Byte
  | .setpoint address flags values =>
    withCheck ([BitVec.ofNat 8 address, 0x01#8, flags.byte, BitVec.ofNat 8 values.length]
      ++ values.flatMap signedBytes)
  | .inquiry address => withCheck [BitVec.ofNat 8 address, 0x02#8]

/-- The length of the reply a frame kind calls for (R119, R120). -/
def FrameKind.replyLength : FrameKind → Nat
  | .setpoint => 7
  | .inquiry => 20

/-- The kind byte of the reply a frame kind calls for (10.5). -/
def FrameKind.replyKind : FrameKind → Byte
  | .setpoint => 0x81#8
  | .inquiry => 0x82#8

/-- What a valid reply carries: the actual angle, the condition, and the eight words of a detail reply (R120). -/
structure Reply where
  actual : Int
  condition : Condition
  words : List Word
  deriving DecidableEq, Repr

/-- The condition field of a reply: a byte in a status reply, a word in a detail reply (10.5). -/
def replyCondition (kind : FrameKind) (bytes : List Byte) : Option Condition :=
  match kind with
  | .setpoint => Condition.ofCode (byteAt bytes 4).toNat
  | .inquiry => Condition.ofCode (wordAt bytes 4).toNat

/-- The words of a reply: eight in a detail reply, none in a status reply (10.5). -/
def replyWords (kind : FrameKind) (bytes : List Byte) : List Word :=
  match kind with
  | .setpoint => []
  | .inquiry => (List.range 8).map fun i => wordAt bytes (2 + 2 * i)

/-- The reply of an exchange, or none where R124 judges it BAD. -/
def judgeReply (e : Exchange) : Option Reply :=
  if e.received.length < e.kind.replyLength then none
  else if e.framingError then none
  else if !checkAgrees e.received then none
  else if (byteAt e.received 0).toNat ≠ e.address then none
  else if byteAt e.received 1 ≠ e.kind.replyKind then none
  else
    (replyCondition e.kind e.received).map fun c =>
      { actual := (wordAt e.received 2).toInt, condition := c, words := replyWords e.kind e.received }

/-! ### The marker message -/

/-- The length of a marker message (R174). -/
def markerMessageLength : Nat := 6

/-- The start mark of a marker message (R174). -/
def startMark : Byte := 0xA5#8

/-- The check of a marker message holds: no byte had a bad stop bit, and the check agrees (R163, R174). -/
def MarkerReception.good (m : MarkerReception) : Bool := !m.stopBad && checkAgrees m.bytes

/-- The marker id of a message (10.5). -/
def MarkerReception.id (m : MarkerReception) : Nat :=
  (byteAt m.bytes 1).toNat + 256 * (byteAt m.bytes 2).toNat + 65536 * (byteAt m.bytes 3).toNat

/-! ### The payload of a command frame -/

/-- The payload of a frame's content: its third byte up to the check (R164). -/
def payloadOf (content : List Byte) : List Byte := (beforeCheck content).drop 2

/-- The payload is one field of a width, holding a number. -/
def isField (width n : Nat) (payload : List Byte) : Bool := payload.length = width && numberOf payload = n

/-- The payload is one field of one to four bytes, holding a number (10.5; log 6). -/
def isNumber (n : Nat) (payload : List Byte) : Bool := (1 ≤ payload.length && payload.length ≤ 4) && numberOf payload = n

end Sys2Proof.Machine

namespace Sys2Proof

open Machine

/-- The row's payload agrees with a frame's: its parameters are those that are read there, or it is marked as of another
length where the frame's has not the length they require. -/
def Payload.agrees {α : Type} (p : Payload α) (reads : α → Bool) (rightLength : Bool) : Bool :=
  match p with
  | .exact a => reads a
  | .wrongLength => !rightLength

/-- A frame's payload may carry what a link command row carries. Where the layout is known it decides: no parameters, the
payloads of SETCOMP and LDPLAN (10.5), the mask word (R171, R173), and, by the field widths of log 6, one chainage and
the lists of values. One number may have one to four bytes. The layout of the other rows is not given: any payload that
is not empty may carry their parameters, and any may have another length (logs 4 and 6). -/
def Instr.carriedBy (i : Instr) (payload : List Byte) : Bool :=
  match i with
  | .start p | .run p | .stby p | .stop p | .reset p | .rdstat p | .rdpos p | .closer p | .abandr p | .clrtab p
  | .tsum p | .rdcomp p | .canplan p | .canstby p | .canxchg p | .rdxchg p | .rdatt p =>
    p.agrees (fun _ => payload.isEmpty) payload.isEmpty
  | .setcomp bytes | .ldplan bytes => payload = bytes
  | .setmask p => p.agrees (fun w => isField 2 w.toNat payload) (payload.length = 2)
  | .setpos p | .findat p | .cover p => p.agrees (fun c => isField 4 c.toNat payload) (payload.length = 4)
  | .putp p | .contp p => p.agrees (fun values => payload = values.flatMap wordBytes) (payload.length % 2 = 0)
  | .hold p | .setcal p | .rdcar p | .setbus p | .xchg p | .restore p => p.agrees (fun n => isNumber n payload) false
  | .setfix p => p.agrees (fun _ => !payload.isEmpty) false
  | .openr p => p.agrees (fun _ => !payload.isEmpty) false
  | .wdraw p => p.agrees (fun _ => !payload.isEmpty) false
  | .wdsect p => p.agrees (fun _ => !payload.isEmpty) false
  | .rdrec p => p.agrees (fun _ => !payload.isEmpty) false
  | .rdslot p => p.agrees (fun _ => !payload.isEmpty) false
  | .setcyc p => p.agrees (fun _ => !payload.isEmpty) false
  | .settrav p => p.agrees (fun _ => !payload.isEmpty) false
  | .setlim p => p.agrees (fun _ => !payload.isEmpty) false
  | .odometerPulse _ | .fixIntervalExpiry | .holdExpiry | .markerStrobe | .markerMessage _ _ | .markerMessageCutShort
  | .fence | .planEntryServed | .manualExchangeStart | .frameSent | .replyReceived _ _ | .replyCutShort
  | .replyTimeout | .settlingDone | .frameClosed _ | .frameAborted _ | .answerSent | .softwareReset | .pinReset _
  | .powerOn _ | .replyStartBit | .replyByteTaken _ _ | .linkCharacter _ _ | .markerByte _ _ | .resetNRelease => false

end Sys2Proof

namespace Sys2Proof.Machine

/-! ### The answer frame -/

/-- The flag of the route link (R162). -/
def linkFlag : Byte := 0x7E#8

/-- The escape character of the route link (R162). -/
def linkEscape : Byte := 0x7D#8

/-- The address byte of a frame that names the part (R164). -/
def addressByte (t : Straps) : Byte := t.laddr.zeroExtend 8 <<< 2

/-- The bytes of a count field. -/
def countBytes (n : Nat) : List Byte := wordBytes (BitVec.ofNat 16 n)

/-- The thirteen bytes of an RDATT answer (10.5). -/
def AttentionReport.bytes (r : AttentionReport) : List Byte :=
  groupSummary r.causeWord :: (wordBytes r.causeWord ++ wordBytes r.cars ++ wordBytes r.masks
    ++ countBytes r.taken ++ countBytes r.notTaken ++ countBytes r.dropped)

/-- The bytes of an answer payload: none for an empty one, RDATT's by its table, SETMASK's one word by the layout of the
mask word, and at most 60 bytes of a layout the spec leaves open for any other (R167, R171, 10.5; log 8). -/
def AnswerPayload.bytes : AnswerPayload → List Byte
  | .empty => []
  | .attention r => r.bytes
  | .masks w => wordBytes w
  | p => (Config.answerPayloadBytes p).take maxPayload

/-- The content of the answer frame, its check included (R167). -/
def Answer.content (a : Answer) (t : Straps) : List Byte :=
  withCheck ([addressByte t ||| 0x02#8, a.code, a.status.byte, a.result.byte] ++ a.payload.bytes)

/-- One content byte as it is sent, escaped where it must be (R162). -/
def escapeByte (b : Byte) : List Byte := if b = linkFlag || b = linkEscape then [linkEscape, b ^^^ 0x20#8] else [b]

/-- A content framed and escaped (R162). -/
def frameOf (content : List Byte) : List Byte := linkFlag :: (content.flatMap escapeByte ++ [linkFlag])

/-- The characters of the answer in progress on LINK_TX (R162, R167). -/
def State.linkTxFrame (s : State) : Option (List Byte) := s.link.answer.map fun a => frameOf (a.content s.straps)

/-- The bytes of the frame last put on TBUS_TX (R120). -/
def State.tbusFrameBytes (s : State) : Option (List Byte) := s.poll.frame.map TiltFrame.bytes

/-- Whether TBUS_DE is asserted: while the part sends a frame, and at no other time (R118, R121, R122). -/
def State.tbusDe (s : State) : Bool := decide (s.poll.phase = .sending)

end Sys2Proof.Machine
end

