-- ==== Sys2Proof/Machine/Ops.lean ====
section
/-! DEFINITION. The operations the rows share: holding a value in its range, where the train and its cars stand (R91 to
R94), the lock (R11), taking and answering a link command (R165, R166), and gating by RESET_N (R183). -/

namespace Sys2Proof.Machine

/-! ### Values held in their range -/

/-- A position held between 0 and the top (R2, R13). -/
def holdPosition (x : Int) : Nat := (max 0 (min x topPosition)).toNat

/-- A signed distance held at a magnitude of the top (R3). -/
def holdSigned (x : Int) : Int := max (-topPosition) (min x topPosition)

/-- A distance held at the top (R3, R175). -/
def satDistance (n : Nat) : Nat := min n topPosition

/-- The whole-cm part of a count of 1/256 cm, truncated (R1). -/
def wholeCm (n : Nat) : Nat := n / 256

/-- A value whose magnitude is limited to a cap, keeping its sign (R102). -/
def limitMagnitude (v : Int) (cap : Nat) : Int := max (-(cap : Int)) (min v cap)

/-! ### Places along the train -/

/-- A place ahead of a chainage by a distance, in the travel sense; behind it where the distance is negative. -/
def ahead (travel : TravelSense) (p d : Int) : Int :=
  match travel with
  | .ascending => p + d
  | .descending => p - d

/-- The effective offset of an offset from end A (R91). -/
def Composition.effective (c : Composition) (lead : TrainEnd) (offset : Nat) : Nat :=
  match lead with
  | .endA => offset
  | .endB => c.length - offset

/-- The car an index names, none above the car count (R85). -/
def Composition.car? (c : Composition) (k : Nat) : Option Car := if k = 0 then none else c.cars[k - 1]?

/-- The car count, 0 where no composition is held (R95). -/
def DemandUnit.carCount (d : DemandUnit) : Nat := (d.composition.map fun c => c.cars.length).getD 0

/-- The car an index names in the composition held, if any. -/
def DemandUnit.car? (d : DemandUnit) (k : Nat) : Option Car := d.composition.bind fun c => c.car? k

/-- The effective reader offset, 0 while no composition is held (R8, R91). -/
def DemandUnit.readerOffset (d : DemandUnit) : Nat :=
  match d.composition with
  | none => 0
  | some c => c.effective d.lead c.reader

/-- The effective offsets of the cars, in formation order (R91). -/
def DemandUnit.effectiveOffsets (d : DemandUnit) : List Nat :=
  match d.composition with
  | none => []
  | some c => c.cars.map fun car => c.effective d.lead car.offset

/-- The index of the rear car: car n when A leads, car 1 when B leads; 0 where no composition is held (R93, R95). -/
def DemandUnit.rearCar (d : DemandUnit) : Nat :=
  match d.composition with
  | none => 0
  | some c =>
    match d.lead with
    | .endA => c.cars.length
    | .endB => 1

/-- The position of a car of a given effective offset, signed and not clamped (R92). -/
def carPosition (travel : TravelSense) (lead : Nat) (d : Nat) : Int := ahead travel lead (-(d : Int))

/-- The positions of the cars for a lead position, in formation order (R92). -/
def State.carPositions (s : State) (lead : Nat) : List Int :=
  s.demand.effectiveOffsets.map fun d => carPosition s.position.travel lead d

/-- The position of the car of an index, none where the composition has no such car (R92). -/
def State.carPositionOf (s : State) (lead : Nat) (k : Nat) : Option Int :=
  if k = 0 then none else (s.carPositions lead)[k - 1]?

/-- The rear position for a lead position (R93); none where no composition is held. -/
def State.rearPosition (s : State) (lead : Nat) : Option Int := s.carPositionOf lead s.demand.rearCar

/-- The whole-cm part of RP. -/
def State.leadCm (s : State) : Nat := wholeCm s.position.rp

/-! ### Places in a record -/

/-- The extent of a record (R20). -/
def Record.extent (r : Record) : Extent := { e0 := r.e0, e3 := r.e3 }

/-- The extent covers a place (R20). -/
def Record.covers (r : Record) (p : Int) : Bool := decide ((r.e0 : Int) ≤ p ∧ p < r.e3)

/-- The extent lies wholly behind a rear position (R53, R73). -/
def Record.behind (travel : TravelSense) (r : Record) (rear : Int) : Bool :=
  match travel with
  | .ascending => decide ((r.e3 : Int) ≤ rear)
  | .descending => decide (rear < (r.e0 : Int))

/-- The far end of a record in the travel sense (R83). -/
def Record.farEnd (travel : TravelSense) (r : Record) : Nat :=
  match travel with
  | .ascending => r.e3
  | .descending => r.e0

/-! ### The lock -/

/-- The lock put in a state; LOCK_CHANGED is raised where that changes it (R11). -/
def State.setLock (s : State) (l : Lock) : State :=
  (s.setPosition { s.position with lock := l }).raiseIf (decide (s.position.lock ≠ l)) .lockChanged

/-- While LOCKED, with a limit that is not 0, the whole-cm fix distance exceeds the limit (R14). -/
def PositionUnit.intervalPassed (p : PositionUnit) : Bool :=
  decide (p.lock = .locked) && decide (p.intervalLimit ≠ 0) && decide (p.intervalLimit * 100 < wholeCm p.fixDistance)

/-- The check of the fix interval limit: where it has been passed, the lock becomes DOUBT with no candidate (R14). -/
def State.checkInterval (s : State) : State :=
  if s.position.intervalPassed then (s.setPosition { s.position with candidate := none }).setLock .doubt else s

/-! ### The hold distance -/

/-- In HOLD, with a hold distance that is not 0, the whole-cm distance travelled exceeds it (R181). -/
def ModeControl.holdPassed (m : ModeControl) : Bool :=
  decide (m.mode = .hold) && decide (m.holdDistance ≠ 0) && decide (m.holdDistance * 100 < wholeCm m.holdTravelled)

/-- The check of the hold distance: where it has been passed, the mode becomes STANDBY and MODE_CHANGED is raised
(R181). -/
def State.checkHold (s : State) : State :=
  if s.mode.holdPassed then (s.setMode { s.mode with mode := .standby }).raise .modeChanged else s

/-! ### Taking a link command and answering it -/

/-- The answer of a frame formed, and the port ANSWERING with it (R165, R167). -/
def LinkPort.respond (l : LinkPort) (a : Answer) : LinkPort := { l with phase := .answering, answer := some a }

/-- A frame that finds the port busy: dropped, counted, FRAME_DROPPED raised (R165). -/
def LinkPort.drop (l : LinkPort) : LinkPort := { l with dropped := bump l.dropped }.raise .frameDropped

/-- The command the receive buffer holds, if its code is in the table. -/
def Buffered.code : Buffered → Option CommandCode
  | .frame content => CommandCode.ofByte (byteAt content 1)
  | .command c => some c

/-- The buffer holds a frame that a row of a command may be the hand-over of: its code, and a payload that may carry what
the row carries (R164, R166; log 4). -/
def Buffered.holds (b : Buffered) (c : CommandCode) (i : Instr) : Bool :=
  match b with
  | .frame content => b.code = some c && i.carriedBy (payloadOf content)
  | .command d => d = c

/-- A RESET has been taken and its reset is not yet carried out; until then the port is busy (R183). -/
def State.resetAhead (s : State) : Bool := decide (s.mode.resetStage ≠ .none)

/-- The port is busy: a frame that calls for an answer is dropped (R165, R183). -/
def State.portBusy (s : State) : Bool := decide (s.link.phase ≠ .idle) || s.resetAhead

/-- The port takes a command's row in. IDLE, the row stands for the frame that carries the command: it goes into the
buffer, is counted Taken, and the port is ACTING. ACTING on a frame that may carry the row, the row is its hand-over to
the block. Otherwise the frame finds the port busy: none (R164, R165, R166, R183; log 4). -/
def State.takeIn (s : State) (c : CommandCode) (i : Instr) : Option LinkPort :=
  if s.resetAhead then none
  else
    match s.link.phase with
    | .idle => some { s.link with phase := .acting, buffer := some (.command c), taken := bump s.link.taken }
    | .acting => if s.link.buffer.any fun b => b.holds c i then some s.link else none
    | .answering => none

/-- What a block makes of a command: the state it leaves, the result and the answer payload (R166). -/
structure CommandResult where
  state : State
  result : ResultCode
  payload : AnswerPayload
  deriving DecidableEq, Repr

/-- A command that changes nothing and answers a result with an empty payload. -/
def CommandResult.refuse (s : State) (r : ResultCode) : CommandResult := { state := s, result := r, payload := .empty }

/-- A command answered DONE with an empty payload. -/
def CommandResult.done (s : State) : CommandResult := { state := s, result := .done, payload := .empty }

/-- The answer to a Taken command's frame put in the port (R167). -/
def State.answer (s : State) (c : CommandCode) (r : ResultCode) (p : AnswerPayload) : State :=
  s.setLink (s.link.respond { code := c.byte, status := .taken, result := r, payload := p })

/-- Nothing is taken while RESET_N is held low (R183). -/
def unlessHeld (s : State) (next : State) : Host.Outcome State Fault Refusal :=
  .next (if s.resetHeld then s else next)

/-- A command handed to its block with the port ACTING: refused WRONG_MODE where the mode does not allow it, before any
check of the block, and else acted on and answered (R166, R176). -/
def State.act (s : State) (c : CommandCode) (owner : State → CommandResult) : State :=
  if c.available s.mode.mode then
    (owner s).state.answer c (owner s).result (owner s).payload
  else s.answer c .wrongMode .empty

/-- A link command row: taken in by the port and acted on by its block, or dropped by a busy port (R165, R166). -/
def runCommand (c : CommandCode) (i : Instr) (owner : State → CommandResult) (s : State) :
    Host.Outcome State Fault Refusal :=
  unlessHeld s
    (match s.takeIn c i with
    | some l => (s.setLink l).act c owner
    | none => s.setLink s.link.drop)

/-- The block's act on the parameters of a payload; a payload of another length is refused BAD_PARAM (R43, R166; log
5). -/
def withParameters {α : Type} (p : Payload α) (owner : α → State → CommandResult) (s : State) : CommandResult :=
  match p with
  | .exact a => owner a s
  | .wrongLength => .refuse s .badParam

end Sys2Proof.Machine
end

