-- ==== Sys2Proof/Machine/TableOps.lean ====
section
/-! DEFINITION. What a slot holds and how it is judged: its state (R27), its post-publication view (R33), the points of
its images (R37), the laws of keys, markers and overlap (R34 to R36), the reach and the horizon distance (R83). -/

namespace Sys2Proof.Machine

/-! ### One slot -/

/-- The state of a slot (R27). -/
def Slot.state (s : Slot) : SlotState :=
  match s.live with
  | none =>
    match s.pending with
    | .image _ => .staged
    | .none => .free
    | .withdrawal => .free
  | some _ =>
    match s.fade with
    | some _ => .fading
    | none =>
      match s.status with
      | .armed => .armed
      | .active => .active

/-- The pending image of a slot, if it holds one. -/
def Slot.pendingImage (s : Slot) : Option Record :=
  match s.pending with
  | .image r => some r
  | .none => none
  | .withdrawal => none

/-- The post-publication view of a slot; a FREE slot has none (R33). -/
def Slot.view (s : Slot) : Option Record :=
  match s.pending with
  | .image r => some r
  | .none => s.live
  | .withdrawal => s.live

/-- The points an image holds: its entry and exit profile values, 0 for a LIMIT (R37). -/
def Record.points (r : Record) : Nat :=
  match r.body with
  | .curve c => c.entry.length + c.exit.length
  | .limit _ => 0

/-- The points of an image that may be absent. -/
def imagePoints (r : Option Record) : Nat := (r.map Record.points).getD 0

/-- The points a slot holds, by its live and its pending image (R37). -/
def Slot.points (s : Slot) : Nat := imagePoints s.live + imagePoints s.pendingImage

/-- The slot of a number; beyond the table, a FREE one. -/
def CurveTable.slot (t : CurveTable) (i : Nat) : Slot := t.slots.getD i Slot.freed

/-- The table with one slot replaced. -/
def CurveTable.putSlot (t : CurveTable) (i : Nat) (s : Slot) : CurveTable := { t with slots := t.slots.set i s }

/-- The number of the lowest slot, counted from k, that meets a check on its number and contents. -/
def lowestSlot (check : Nat → Slot → Bool) : Nat → List Slot → Option Nat
  | _, [] => none
  | k, s :: ss => if check k s then some k else lowestSlot check (k + 1) ss

/-- The lowest-numbered FREE slot (R29). -/
def CurveTable.lowestFree (t : CurveTable) : Option Nat :=
  lowestSlot (fun _ s => decide (s.state = .free)) 0 t.slots

/-- The slot whose post-publication view carries a key (R33, R34). -/
def CurveTable.slotOfKey (t : CurveTable) (key : Nat) : Option Nat :=
  lowestSlot (fun _ s => s.view.any fun r => r.key = key) 0 t.slots

/-- The lowest-numbered slot, but for one that is left out, whose view meets a check. -/
def CurveTable.lowestOther (t : CurveTable) (leaveOut : Option Nat) (check : Record → Bool) : Option Nat :=
  lowestSlot (fun i s => decide (leaveOut ≠ some i) && s.view.any check) 0 t.slots

/-! ### The laws of the view -/

/-- Two stretches meet; a stretch of zero length meets nothing (R36). -/
def meets (a b c d : Nat) : Bool := decide (a < b) && decide (c < d) && decide (a < d) && decide (c < b)

/-- Two records break the overlap law: both are CURVEs, and the body of one meets the extent of the other (R36). -/
def Record.overlaps (r q : Record) : Bool :=
  match r.body, q.body with
  | .curve c, .curve d => meets c.e1 c.e2 q.e0 q.e3 || meets r.e0 r.e3 d.e1 d.e2
  | .curve _, .limit _ => false
  | .limit _, .curve _ => false
  | .limit _, .limit _ => false

/-- Two records carry the same marker id (R35). -/
def Record.sharesMarker (r q : Record) : Bool :=
  match r.marker, q.marker with
  | some m, some n => m.id = n.id
  | some _, none => false
  | none, some _ => false
  | none, none => false

/-! ### Counting slots -/

/-- The number of slots in a state. -/
def countState (slots : List Slot) (x : SlotState) : Nat := slots.countP fun s => decide (s.state = x)

/-- The numbers of slots in each state (R65, R184). -/
def slotCounts (slots : List Slot) : SlotCounts where
  free := countState slots .free
  staged := countState slots .staged
  armed := countState slots .armed
  active := countState slots .active
  fading := countState slots .fading

/-- The points held by every image of the table. -/
def heldPoints (slots : List Slot) : Nat := (slots.map Slot.points).sum

/-! ### Reach and horizon -/

/-- The farther of two chainages in the travel sense (R83). -/
def farther (travel : TravelSense) (a b : Nat) : Nat :=
  match travel with
  | .ascending => max a b
  | .descending => min a b

/-- The farthest of a list, none where it is empty. -/
def farthest (travel : TravelSense) : List Nat → Option Nat
  | [] => none
  | x :: xs => some (xs.foldl (farther travel) x)

/-- The reach over the post-publication view and the coverage position (R83). -/
def CurveTable.reachNow (t : CurveTable) (travel : TravelSense) : Option Nat :=
  farthest travel ((t.slots.filterMap Slot.view).map (Record.farEnd travel) ++ t.coverage.toList)

/-- The signed distance from the lead position ahead to a reach (R83). -/
def horizonDistance (travel : TravelSense) (lead reach : Nat) : Int :=
  match travel with
  | .ascending => (reach : Int) - lead
  | .descending => (lead : Int) - reach

/-- Slot contents dropped, flags and stamps cleared: a freed slot; the pool takes back the points it held (R28,
R39). -/
def CurveTable.freeSlot (t : CurveTable) (i : Nat) : CurveTable :=
  { t.putSlot i Slot.freed with poolFree := t.poolFree + (t.slot i).points }

end Sys2Proof.Machine
end

