-- ==== Sys2Proof/Machine/Assembly.lean ====
section
/-! DEFINITION. Building and staging a record: OPENR, PUTP, CONTP, CLOSER and ABANDR (R44 to R57). -/

namespace Sys2Proof.Machine

/-- The Curve Table with its assembly replaced. -/
def State.setAssembly (s : State) (a : Option Assembly) : State := s.setTable { s.table with assembly := a }

/-! ### OPENR -/

end Sys2Proof.Machine

namespace Sys2Proof

/-- The fields of a CURVE that R45 judges. -/
def OpenFields.curveOk (f : OpenFields) : Bool :=
  decide (f.e0 ≤ f.e1) && decide (f.e1 ≤ f.e2) && decide (f.e2 ≤ f.e3) && decide (f.e0 < f.e3)
    && (!f.bandPresent || decide (f.vZero < f.vFull))
    && decide (f.nIn ≠ 1 ∧ f.nIn ≤ 16) && decide (f.nOut ≠ 1 ∧ f.nOut ≤ 16)

/-- The fields of a LIMIT that R45 judges. -/
def OpenFields.limitOk (f : OpenFields) : Bool :=
  decide (f.e0 < f.e3) && !f.bandPresent && decide (f.nIn = 0 ∧ f.nOut = 0)

/-- The fields of either kind that R45 judges. -/
def OpenFields.commonOk (f : OpenFields) : Bool :=
  decide (f.key ≠ 0) && decide (f.sectionTag ≤ 4095) && decide (f.angleOrCap ≤ 800)
    && (!f.markerPresent || decide (1 ≤ f.markerId ∧ f.markerId ≤ 16777215))

/-- The speed band given, if it is marked present (R45). -/
def OpenFields.band (f : OpenFields) : Option Machine.Band :=
  if f.bandPresent then some { vZero := f.vZero.toNat, vFull := f.vFull.toNat } else none

/-- The marker given, if it is marked present (R45). -/
def OpenFields.marker (f : OpenFields) : Option Machine.Marker :=
  if f.markerPresent then some { id := f.markerId, position := f.markerPosition.toNat } else none

/-- The body of the assembly, where the kind and the fields read for it pass R45. -/
def OpenFields.draft (f : OpenFields) : Option Machine.BodyDraft :=
  match f.kind, f.hand with
  | .named .curve, .named h =>
    if f.curveOk then
      some (.curve
        { e1 := f.e1.toNat, e2 := f.e2.toNat, hand := h, angle := f.angleOrCap, band := f.band, nIn := f.nIn,
          nOut := f.nOut })
    else none
  | .named .curve, .other => none
  | .named .limit, _ => if f.limitOk then some (.limit f.angleOrCap) else none
  | .other, _ => none

/-- The assembly an OPENR opens, where its fields pass R45 (R46). -/
def OpenFields.assembly (f : OpenFields) : Option Machine.Assembly :=
  match f.intent, f.draft with
  | .named i, some body =>
    if f.commonOk then
      some
        { intent := i, key := f.key.toNat, sectionTag := f.sectionTag, e0 := f.e0.toNat, e3 := f.e3.toNat,
          body := body, marker := f.marker, values := [], writePosition := 0 }
    else none
  | .named _, none => none
  | .other, _ => none

end Sys2Proof

namespace Sys2Proof.Machine

/-- The declared count of entry values (R44). -/
def Assembly.nIn (a : Assembly) : Nat :=
  match a.body with
  | .curve c => c.nIn
  | .limit _ => 0

/-- The declared count of exit values (R44). -/
def Assembly.nOut (a : Assembly) : Nat :=
  match a.body with
  | .curve c => c.nOut
  | .limit _ => 0

/-- The declared total n_in + n_out (R44). -/
def Assembly.total (a : Assembly) : Nat := a.nIn + a.nOut

/-- OPENR's act (R45, R46). -/
def actOpenr (f : OpenFields) (s : State) : CommandResult :=
  match s.table.assembly, f.assembly with
  | some _, _ => .refuse s .assemblyOpen
  | none, none => .refuse s .badParam
  | none, some a => { state := s.setAssembly (some a), result := .done, payload := .value a.total }

/-- OPENR (R45, R46). -/
def execOpenr (p : Payload OpenFields) (s : State) : Host.Outcome State Fault Refusal :=
  runCommand .openr (.openr p) (withParameters p actOpenr) s

/-! ### PUTP and CONTP -/

/-- The greatest number of values a PUTP or CONTP carries (R47). -/
def maxValues : Nat := 29

/-- Values that a write from a place does not ignore (R47). -/
def Assembly.accepted (a : Assembly) (place : Nat) (values : List Word) : List Nat :=
  (values.map BitVec.toNat).take (a.total - place)

/-- Values written into successive places from a place on: what lies before and after them is kept (R47). -/
def Assembly.write (a : Assembly) (place : Nat) (values : List Word) : Assembly :=
  { a with
    values := a.values.take place ++ a.accepted place values
      ++ a.values.drop (place + (a.accepted place values).length)
    writePosition := place + (a.accepted place values).length }

/-- The answer of a write (R47). -/
def Assembly.writeReport (a : Assembly) (place : Nat) (values : List Word) : AnswerPayload :=
  .written (a.accepted place values).length (values.length - (a.accepted place values).length)
    (a.total - (a.write place values).values.length)

/-- The act of PUTP and CONTP, which differ in the place they start at (R47 to R49). More than 29 values are a payload
too long for the command (log 16). -/
def actWrite (start : Assembly → Nat) (values : List Word) (s : State) : CommandResult :=
  if values = [] ∨ maxValues < values.length then .refuse s .badParam
  else
    match s.table.assembly with
    | none => .refuse s .noAssembly
    | some a =>
      { state := s.setAssembly (some (a.write (start a) values))
        result := .done
        payload := a.writeReport (start a) values }

/-- PUTP: from place 0 (R47, R48). -/
def execPutp (p : Payload (List Word)) (s : State) : Host.Outcome State Fault Refusal :=
  runCommand .putp (.putp p) (withParameters p (actWrite fun _ => 0)) s

/-- CONTP: from the write position (R47, R49). -/
def execContp (p : Payload (List Word)) (s : State) : Host.Outcome State Fault Refusal :=
  runCommand .contp (.contp p) (withParameters p (actWrite Assembly.writePosition)) s

/-! ### CLOSER's checks -/

/-- A refusal of CLOSER with the payload it carries. -/
abbrev CloseRefusal := ResultCode × AnswerPayload

/-- The first refusal of a list of checks, in their order (R50). -/
def firstRefusal : List (Option CloseRefusal) → Option CloseRefusal
  | [] => none
  | some r :: _ => some r
  | none :: rest => firstRefusal rest

/-- The entry profile of an assembly (R44). -/
def Assembly.entryProfile (a : Assembly) : List Nat := a.values.take a.nIn

/-- The exit profile of an assembly (R44). -/
def Assembly.exitProfile (a : Assembly) : List Nat := (a.values.drop a.nIn).take a.nOut

/-- The record an assembly makes (R55). -/
def Assembly.record (a : Assembly) : Record where
  key := a.key
  sectionTag := a.sectionTag
  e0 := a.e0
  e3 := a.e3
  body := match a.body with
    | .curve c =>
      .curve
        { e1 := c.e1, e2 := c.e2, hand := c.hand, angle := c.angle, band := c.band, entry := a.entryProfile,
          exit := a.exitProfile }
    | .limit cap => .limit cap
  marker := a.marker

/-- The kind of a record (R20). -/
def Record.kind (r : Record) : RecordKind :=
  match r.body with
  | .curve _ => .curve
  | .limit _ => .limit

/-- The number, counted from k, of the first value above 1024. -/
def firstAbove : Nat → List Nat → Option Nat
  | _, [] => none
  | k, v :: vs => if 1024 < v then some k else firstAbove (k + 1) vs

/-- The place, counted from k, of the first offence of a profile that must run from one end value to another, none for
a profile without values (R24, R51; log 15). -/
def profileOffence (k first last : Nat) (values : List Nat) : Option Nat :=
  match values with
  | [] => none
  | v :: vs =>
    match firstAbove k (v :: vs) with
    | some place => some place
    | none =>
      if v ≠ first then some k
      else if (v :: vs).getLast? ≠ some last then some (k + vs.length)
      else none

/-- Check 1 (R51). -/
def Assembly.checkComplete (a : Assembly) : Option CloseRefusal :=
  if a.values.length < a.total then some (.incomplete, .value (a.total - a.values.length)) else none

/-- Check 2 (R51). -/
def Assembly.checkProfiles (a : Assembly) : Option CloseRefusal :=
  match profileOffence 0 0 1024 a.entryProfile with
  | some place => some (.badProfile, .profilePlace .entry place)
  | none =>
    match profileOffence a.nIn 1024 0 a.exitProfile with
    | some place => some (.badProfile, .profilePlace .exit place)
    | none => none

/-- The slot an amendment is for: the one that carries the key (R29, R52). -/
def Assembly.amendedSlot (a : Assembly) (t : CurveTable) : Option Nat :=
  match a.intent with
  | .new => none
  | .amend => t.slotOfKey a.key

/-- Check 3 for the slot an AMEND has found (R52). -/
def Assembly.checkAmended (a : Assembly) (i : Nat) (x : Slot) : Option CloseRefusal :=
  if x.pending = .withdrawal then some (.withdrawn, .slot i)
  else if x.state = .fading then some (.fading, .slot i)
  else if x.view.any fun r => decide (r.kind ≠ a.record.kind) then some (.badParam, .slot i)
  else none

/-- Check 3 (R52). -/
def Assembly.checkKey (a : Assembly) (t : CurveTable) : Option CloseRefusal :=
  match a.intent, t.slotOfKey a.key with
  | .new, none => none
  | .new, some i => some (.keyInUse, .slot i)
  | .amend, none => some (.noSuchKey, .empty)
  | .amend, some i => a.checkAmended i (t.slot i)

/-- Check 4 (R53). -/
def Assembly.checkMarker (a : Assembly) (t : CurveTable) : Option CloseRefusal :=
  (t.lowestOther (a.amendedSlot t) a.record.sharesMarker).map fun i => (.markerInUse, .slot i)

/-- Check 5, against the rear position at RP (R53). -/
def Assembly.checkBehind (a : Assembly) (s : State) : Option CloseRefusal :=
  if (s.rearPosition s.leadCm).any (a.record.behind s.position.travel) then some (.behind, .empty) else none

/-- Check 6 (R53). -/
def Assembly.checkOverlap (a : Assembly) (t : CurveTable) : Option CloseRefusal :=
  (t.lowestOther (a.amendedSlot t) a.record.overlaps).map fun i => (.overlap, .slot i)

/-- Check 7 (R54). -/
def Assembly.checkRoom (a : Assembly) (t : CurveTable) : Option CloseRefusal :=
  match a.intent, t.lowestFree with
  | .new, none => some (.tableFull, .empty)
  | .new, some _ => none
  | .amend, _ => none

/-- The points an amendment returns: those of the pending image it replaces (R38). -/
def Assembly.returnedPoints (a : Assembly) (t : CurveTable) : Nat :=
  match a.amendedSlot t with
  | none => 0
  | some i => imagePoints (t.slot i).pendingImage

/-- Check 8 (R38, R54). -/
def Assembly.checkPool (a : Assembly) (t : CurveTable) : Option CloseRefusal :=
  if t.poolFree + a.returnedPoints t < a.total then
    some (.poolFull, .points a.total (t.poolFree + a.returnedPoints t))
  else none

/-- The first check of CLOSER that fails, in the order of R50. -/
def Assembly.closeRefusal (a : Assembly) (s : State) : Option CloseRefusal :=
  firstRefusal
    [a.checkComplete, a.checkProfiles, a.checkKey s.table, a.checkMarker s.table, a.checkBehind s, a.checkOverlap s.table,
      a.checkRoom s.table, a.checkPool s.table]

/-! ### CLOSER's effect -/

/-- The slot a record is staged in: the lowest FREE one, or the one amended (R29). -/
def Assembly.target (a : Assembly) (t : CurveTable) : Option Nat :=
  match a.intent with
  | .new => t.lowestFree
  | .amend => t.slotOfKey a.key

/-- A slot that takes a pending image; a pending image it held is replaced, and its overwritten flag set (R30, R55,
R56). -/
def Slot.stage (x : Slot) (r : Record) : Slot :=
  { x with pending := .image r, overwritten := x.overwritten || x.pendingImage.isSome }

/-- The pool free count after CLOSER (R55, R56). -/
def Assembly.freeAfter (a : Assembly) (t : CurveTable) : Nat := t.poolFree + a.returnedPoints t - a.total

/-- The free count below which POOL_LOW is raised (R38). -/
def poolLowMark : Nat := 32

/-- A record staged in a slot, the points reserved and the assembly closed (R55, R56). -/
def State.stageRecord (s : State) (a : Assembly) (i : Nat) : State :=
  (s.setTable { s.table.putSlot i ((s.table.slot i).stage a.record) with
    poolFree := a.freeAfter s.table
    assembly := none }).raiseIf
    (decide (poolLowMark ≤ s.table.poolFree) && decide (a.freeAfter s.table < poolLowMark)) .poolLow

/-- CLOSER's act (R50 to R56). -/
def actCloser (_ : Unit) (s : State) : CommandResult :=
  match s.table.assembly with
  | none => .refuse s .noAssembly
  | some a =>
    match a.closeRefusal s, a.target s.table with
    | some (r, p), _ => { state := s, result := r, payload := p }
    | none, none => .refuse s .tableFull
    | none, some i => { state := s.stageRecord a i, result := .done, payload := .staged i (a.freeAfter s.table) }

/-- CLOSER (R50). -/
def execCloser (p : Payload Unit) (s : State) : Host.Outcome State Fault Refusal :=
  runCommand .closer (.closer p) (withParameters p actCloser) s

/-! ### ABANDR -/

/-- ABANDR's act (R57). -/
def actAbandr (_ : Unit) (s : State) : CommandResult :=
  match s.table.assembly with
  | none => .refuse s .noAssembly
  | some _ => .done (s.setAssembly none)

/-- ABANDR (R57). -/
def execAbandr (p : Payload Unit) (s : State) : Host.Outcome State Fault Refusal :=
  runCommand .abandr (.abandr p) (withParameters p actAbandr) s

end Sys2Proof.Machine
end

