-- ==== Sys2Proof/Machine/DemandOps.lean ====
section
/-! DEFINITION. How the lean is formed (R99 to R109): shape, speed factor, contribution, raw sum, caps, demand, target,
slew, preview values and frame flags. -/

namespace Sys2Proof.Machine

/-- Full tilt: the greatest shape value, and the greatest speed factor (Quantities). -/
def fullScale : Nat := 1024

/-- The greatest lean, in 0.01° (Quantities). -/
def maxLean : Nat := 800

/-- The fade level that counts as whole (R101). -/
def fullFade : Nat := 16

/-! ### Step 1: the raw sum -/

/-- The interpolation of R99 over a transition of length t with the list w, at a distance u from its measuring
point. -/
def interpolate (w : List Nat) (t u : Nat) : Int :=
  let x := u * (w.length - 1)
  let i := x / t
  let r := x - i * t
  let wi : Int := w.getD i 0
  if r = 0 then wi else wi + Int.tdiv (((w.getD (i + 1) 0 : Nat) - wi) * r) t

/-- The list of an entry transition: the profile, or 0 and 1024 (R99). -/
def Curve.entryList (c : Curve) : List Nat := if c.entry = [] then [0, fullScale] else c.entry

/-- The list of an exit transition, measured back from e3: the profile reversed, or 0 and 1024 (R99). -/
def Curve.exitList (c : Curve) : List Nat := if c.exit = [] then [0, fullScale] else c.exit.reverse

/-- The shape of a CURVE with extent [e0, e3) at a place (R99). -/
def Curve.shape (c : Curve) (e0 e3 : Nat) (p : Int) : Int :=
  if p < e0 ∨ (e3 : Int) ≤ p then 0
  else if p < c.e1 then interpolate c.entryList (c.e1 - e0) (p - e0).toNat
  else if p < c.e2 then fullScale
  else interpolate c.exitList (e3 - c.e2) (e3 - p).toNat

/-- The speed factor of a speed under a band (R100). -/
def Band.factor (b : Band) (v : Nat) : Nat :=
  if v ≤ b.vZero then 0
  else if b.vFull ≤ v then fullScale
  else (v - b.vZero) * fullScale / (b.vFull - b.vZero)

/-- The sign of a hand: RIGHT is positive (R22, R101). -/
def handSign : Hand → Int
  | .right => 1
  | .left => -1

/-- The divisor of R101: 1024 × 1024 × 16. -/
def contributionDivisor : Int := 16777216

/-- The contribution of a record at a place, for a speed, the default band and a fade level (R101). -/
def Record.contribution (r : Record) (default : Band) (v fade : Nat) (p : Int) : Int :=
  match r.body with
  | .limit _ => 0
  | .curve c =>
    if r.covers p then
      Int.tdiv (handSign c.hand * c.angle * c.shape r.e0 r.e3 p * (c.band.getD default).factor v * fade) contributionDivisor
    else 0

/-- The contribution of a slot's live image, at the fade level while FADING and at 16 otherwise (R101). -/
def Slot.contribution (s : Slot) (default : Band) (v : Nat) (p : Int) : Int :=
  match s.live with
  | none => 0
  | some r => r.contribution default v (s.fade.getD fullFade) p

/-- The raw sum at a place, clamped to −800 to +800 (R101). -/
def rawSum (slots : List Slot) (default : Band) (v : Nat) (p : Int) : Int :=
  limitMagnitude (slots.map fun s => s.contribution default v p).sum maxLean

/-! ### Step 2: the caps -/

/-- The cap of a record at a place: a LIMIT's, where its extent covers it, and else 800 (R102). -/
def Record.capAt (r : Record) (p : Int) : Nat :=
  match r.body with
  | .curve _ => maxLean
  | .limit cap => if r.covers p then cap else maxLean

/-- The least of 800 and the caps of the live LIMIT records covering a place (R64, R102). -/
def limitCap (slots : List Slot) (p : Int) : Nat :=
  ((slots.filterMap Slot.live).map fun r => r.capAt p).foldl min maxLean

/-- The raw demand of FINDAT (R64). -/
def rawDemand (slots : List Slot) (default : Band) (v : Nat) (p : Int) : Int :=
  limitMagnitude (rawSum slots default v p) (limitCap slots p)

/-- The health of a car index; beyond the 16, as after a reset (R150). -/
def State.healthOf (s : State) (k : Nat) : CarHealth := if k = 0 then .clear else s.health.getD (k - 1) .clear

/-- A car that is CUT OUT or RECOVERING. -/
def HealthState.out : HealthState → Bool
  | .served => false
  | .limited => false
  | .cutOut => true
  | .recovering => true

/-- The neighbours of a car among the cars of the composition (R94). -/
def neighbours (count k : Nat) : List Nat := [k - 1, k + 1].filter fun j => decide (1 ≤ j) && decide (j ≤ count)

/-- Whether a neighbour of a car is CUT OUT or RECOVERING (R102). -/
def State.neighbourOut (s : State) (k : Nat) : Bool :=
  (neighbours s.demand.carCount k).any fun j => (s.healthOf j).state.out

/-- The cap at a place for a car (R102). -/
def State.capFor (s : State) (k : Nat) (p : Int) : Nat :=
  min (limitCap s.table.slots p)
    (min (if s.position.snapshot.lock = .doubt then s.demand.limits.doubtCap else maxLean)
      (if s.neighbourOut k then s.demand.limits.gangway else maxLean))

/-! ### Step 3: the demand -/

/-- The demand at a place for a car (R101 to R103). -/
def State.demandAt (s : State) (k : Nat) (p : Int) : Int :=
  let v := limitMagnitude (rawSum s.table.slots s.demand.limits.band s.position.snapshot.speed p) (s.capFor k p)
  if (s.healthOf k).state = .limited then v.tdiv 2 else v

/-! ### Steps 4 and 5: target, slew and the setpoint -/

/-- The output state of a car index; beyond the 16, as after a reset (R97). -/
def State.outputOf (s : State) (k : Nat) : CarOutput := if k = 0 then .clear else s.demand.cars.getD (k - 1) .clear

/-- The target of a car's setpoint (R104). No setpoint frame is formed in CONFIG; the target is given as in STANDBY
there. -/
def State.target (s : State) (k : Nat) (p : Int) : Int :=
  match s.mode.mode with
  | .running => if s.position.snapshot.lock = .noFix then 0 else s.demandAt k p
  | .hold => (s.outputOf k).lastSent
  | .standby => 0
  | .config => 0

/-- One step of at most the slew limit from the last sent setpoint toward a target (R105). -/
def slew (limit : Nat) (last target : Int) : Int :=
  if (target - last).natAbs ≤ limit then target
  else if last < target then last + limit
  else last - limit

/-- The setpoint for a car at a place (R105). -/
def State.setpoint (s : State) (k : Nat) (p : Int) : Int :=
  if (s.healthOf k).state.out then 0 else slew s.demand.limits.slew (s.outputOf k).lastSent (s.target k p)

/-! ### Preview values and flags -/

/-- The number of preview values a span code asks for (R107). -/
def previewCount : Nat → Nat
  | 0 => 0
  | 1 => 1
  | 2 => 3
  | _ => 7

/-- The preview points of a car at a place (R107). -/
def State.previewPoints (s : State) (p : Int) (span : Nat) : List Int :=
  (List.range (previewCount span)).map fun j =>
    ahead s.position.travel p (((j + 1) * s.demand.limits.previewStep : Nat) : Int)

/-- A place stands at a chainage (R92). -/
def onTrack (p : Int) : Bool := decide (0 ≤ p ∧ p ≤ maxChainage)

/-- The preview value of a car that stands at p, for a preview point q. From a car position that stands at no chainage
no record covers a preview point, so the raw sum there is 0, and the demand with it (R92, R107). -/
def State.preview (s : State) (k : Nat) (p q : Int) : Int :=
  if s.mode.mode ≠ .running ∨ s.position.snapshot.lock = .noFix then 0 else if onTrack p then s.demandAt k q else 0

/-- A point lies beyond the reach formed at the last fence (R108). -/
def State.beyondReach (s : State) (p : Int) : Bool :=
  match s.table.reach with
  | none => true
  | some reach =>
    match s.position.travel with
    | .ascending => decide ((reach : Int) ≤ p)
    | .descending => decide (p < (reach : Int))

/-- The flags of a frame to a car at a place (R109). -/
def State.frameFlags (s : State) (k : Nat) (p : Int) (span : Nat) : FrameFlags where
  holding := decide (s.mode.mode ≠ .running)
  doubt := decide (s.position.snapshot.lock ≠ .locked)
  limited := decide ((s.healthOf k).state = .limited)
  cutOut := (s.healthOf k).state.out
  changed := (s.outputOf k).changed.latched
  fixed := (s.outputOf k).fixed.latched
  beyond := (s.previewPoints p span).any s.beyondReach

/-- The values of a frame to a car at a place: the setpoint first (R98, R107). -/
def State.frameValues (s : State) (k : Nat) (p : Int) (span : Nat) : List Int :=
  s.setpoint k p :: (s.previewPoints p span).map (s.preview k p)

/-! ### Latched flags -/

/-- A flag latched: set, with its delivered mark cleared (R110, R111). -/
def LatchedFlag.latch (_ : LatchedFlag) : LatchedFlag where
  latched := true
  delivered := false

/-- A flag carried by a frame that is sent: its mark is set where it is latched (R112). -/
def LatchedFlag.send (f : LatchedFlag) : LatchedFlag := { f with delivered := f.delivered || f.latched }

/-- A flag at a GOOD reply to a setpoint frame: cleared with its mark where the mark is set, and else kept (R113). -/
def LatchedFlag.deliver (f : LatchedFlag) : LatchedFlag := if f.delivered then .clear else f

/-- The output state of one car index replaced. -/
def DemandUnit.putCar (d : DemandUnit) (k : Nat) (f : CarOutput → CarOutput) : DemandUnit :=
  if k = 0 then d else { d with cars := d.cars.modify (k - 1) f }

/-- A list changed member by member, each with its number counted from k. -/
def mapNumbered {α β : Type} (f : Nat → α → β) : Nat → List α → List β
  | _, [] => []
  | k, x :: xs => f k x :: mapNumbered f (k + 1) xs

/-- FIXED latched into every car of the composition (R111). -/
def DemandUnit.latchFixed (d : DemandUnit) : DemandUnit :=
  { d with cars := mapNumbered (fun k c => if k ≤ d.carCount then { c with fixed := c.fixed.latch } else c) 1 d.cars }

/-- The look range of a car at a place meets an extent (R110). -/
def lookMeets (travel : TravelSense) (p : Int) (step : Nat) (e : Extent) : Bool :=
  match travel with
  | .ascending => decide ((e.e0 : Int) ≤ p + (7 * step : Nat)) && decide (p < (e.e3 : Int))
  | .descending => decide ((e.e0 : Int) ≤ p) && decide (p - (7 * step : Nat) < (e.e3 : Int))

/-- Whether the fence latches CHANGED into a car: its look range meets a changed extent (R110). -/
def State.looksAtChange (s : State) (k : Nat) : Bool :=
  match s.carPositionOf s.position.snapshot.lead k with
  | none => false
  | some p => s.table.changedExtents.any (lookMeets s.position.travel p s.demand.limits.previewStep)

/-- CHANGED latched into every car of the composition whose look range meets a changed extent (R110). -/
def State.latchChanged (s : State) : State :=
  s.setDemand { s.demand with
    cars := mapNumbered (fun k c => if s.looksAtChange k then { c with changed := c.changed.latch } else c) 1
      s.demand.cars }

end Sys2Proof.Machine
end

