-- ==== Sys2Proof/Machine/BusOps.lean ====
section
/-! DEFINITION. What the tilt bus rows share: starting a frame (R121), counting an outcome for health (R152 to R154),
storing a reply (R113), writing a manual result (R146), and taking an outcome (R126). -/

namespace Sys2Proof.Machine

/-! ### Health -/

/-- A GOOD outcome for a car (R152). -/
def CarHealth.good (h : CarHealth) : CarHealth :=
  match h.state with
  | .served => { h with counter := h.counter - 1 }
  | .limited =>
    if h.counter - 1 ≤ 63 then { h with state := .served, counter := h.counter - 1 }
    else { h with counter := h.counter - 1 }
  | .cutOut => h
  | .recovering =>
    if 64 ≤ h.recovery + 1 then { state := .served, counter := 0, recovery := 0 }
    else { h with recovery := h.recovery + 1 }

/-- A failing outcome that weighs w for a car (R153, R154). -/
def CarHealth.fail (h : CarHealth) (w : Nat) : CarHealth :=
  match h.state with
  | .served =>
    if 255 < h.counter + w then { h with state := .cutOut, counter := 255 }
    else if 96 ≤ h.counter + w then { h with state := .limited, counter := h.counter + w }
    else { h with counter := h.counter + w }
  | .limited =>
    if 255 < h.counter + w then { h with state := .cutOut, counter := 255 }
    else { h with counter := h.counter + w }
  | .cutOut => h
  | .recovering => { h with state := .cutOut, counter := 255 }

/-- An outcome counted for a car: TIMEOUT and BAD weigh 8, FAULT 16 (R152 to R154). -/
def CarHealth.count (h : CarHealth) (o : ExchangeOutcome) : CarHealth :=
  match o with
  | .good => h.good
  | .fault => h.fail 16
  | .bad => h.fail 8
  | .timeout => h.fail 8

/-- The health of a car index replaced; its CARS bit is raised where its state changes (R158). -/
def State.putHealth (s : State) (k : Nat) (h : CarHealth) : State :=
  (s.setHealth (if k = 0 then s.health else s.health.set (k - 1) h)).setLink
    (if h.state = (s.healthOf k).state then s.link else s.link.raiseCar k)

/-- An outcome counted for a car index (R151). -/
def State.countOutcome (s : State) (k : Nat) (o : ExchangeOutcome) : State :=
  s.putHealth k ((s.healthOf k).count o)

/-! ### The outcome's other readers -/

/-- The condition's outcome (R125). -/
def Condition.outcome : Condition → ExchangeOutcome
  | .ready => .good
  | .slow => .good
  | .fault => .fault

/-- The outcome of a judged reply (R124, R125). -/
def replyOutcome : Option Reply → ExchangeOutcome
  | none => .bad
  | some r => r.condition.outcome

/-- A valid reply stored for a car (R113). -/
def CarOutput.store (c : CarOutput) (r : Reply) : CarOutput :=
  { c with actual := r.actual, condition := some r.condition }

/-- The latched flags a GOOD reply to a setpoint frame clears (R113). -/
def CarOutput.deliver (c : CarOutput) : CarOutput := { c with changed := c.changed.deliver, fixed := c.fixed.deliver }

/-- What a car's output state becomes at the outcome of an exchange (R113). -/
def CarOutput.settle (c : CarOutput) (kind : FrameKind) (reply : Option Reply) : CarOutput :=
  match reply with
  | none => c
  | some r =>
    match kind, r.condition.outcome with
    | .setpoint, .good => (c.store r).deliver
    | .setpoint, .fault => c.store r
    | .setpoint, .bad => c.store r
    | .setpoint, .timeout => c.store r
    | .inquiry, _ => c.store r

/-- The result written for a manual exchange (R146). -/
def ResultRecord.write (old : ResultRecord) (car : Nat) (o : ExchangeOutcome) (reply : Option Reply) : ResultRecord :=
  .unread
    { car := car
      outcome := o
      words := (reply.map Reply.words).getD (List.replicate 8 0)
      lost := match old with
        | .unread _ => true
        | .empty => false
        | .read _ => false }

/-- The manual result written, UNREAD, and MANUAL_DONE raised (R146). -/
def State.writeResult (s : State) (car : Nat) (o : ExchangeOutcome) (reply : Option Reply) : State :=
  (s.setPoll { s.poll with result := s.poll.result.write car o reply }).raise .manualDone

/-! ### Taking an outcome -/

/-- The Poll Engine when the outcome of an exchange is taken: nothing in flight, SETTLING, the manual slot emptied for
a manual exchange, the pass ended where its last entry's exchange ends (R126, R127, R139, R144). -/
def PollEngine.endExchange (p : PollEngine) (e : Exchange) : PollEngine :=
  { p with
    phase := .settling
    exchange := none
    manual := if e.origin = .manual then .empty else p.manual
    pass := if e.origin = .plan ∧ p.pass.any (fun k => decide (p.active.length < k)) then none else p.pass }

/-- The outcome of an exchange applied to health, output state and manual result (R113, R126, R146, R151). -/
def State.applyOutcome (s : State) (e : Exchange) (o : ExchangeOutcome) (reply : Option Reply) : State :=
  let counted := s.countOutcome e.car o
  let stored := counted.setDemand (counted.demand.putCar e.car fun c => c.settle e.kind reply)
  if e.origin = .manual then stored.writeResult e.car o reply else stored

/-- The outcome of the exchange in flight taken; it is not applied where a SETCOMP has come since the start of the
frame (R89, R126). -/
def State.takeOutcome (s : State) (e : Exchange) (o : ExchangeOutcome) (reply : Option Reply) : State :=
  let ended := s.setPoll (s.poll.endExchange e)
  if e.voided then ended else ended.applyOutcome e o reply

/-- The reply received so far judged, and its outcome taken (R123 to R126). -/
def State.takeReply (s : State) (e : Exchange) : State :=
  s.takeOutcome e (replyOutcome (judgeReply e)) (judgeReply e)

/-! ### Starting a frame -/

/-- The exchange of a frame being started (R121). -/
def newExchange (origin : Origin) (k address timeout : Nat) (kind : FrameKind) : Exchange where
  origin := origin
  car := k
  address := address
  kind := kind
  timeout := timeout
  received := []
  framingError := false
  voided := false

/-- The Poll Engine at the start of a frame: the exchange in flight, the frame on TBUS_TX, SENDING (R121). -/
def PollEngine.startFrame (p : PollEngine) (e : Exchange) (f : TiltFrame) : PollEngine :=
  { p with phase := .sending, exchange := some e, frame := some f }

/-- A setpoint sent to a car: its last sent setpoint, and the delivered marks of the flags it carries (R105, R112). -/
def CarOutput.send (c : CarOutput) (setpoint : Int) : CarOutput :=
  { c with lastSent := setpoint, changed := c.changed.send, fixed := c.fixed.send }

/-- The bus stands free for a frame: IDLE with nothing in flight (R121). -/
def PollEngine.free (p : PollEngine) : Bool := decide (p.phase = .idle) && p.exchange.isNone

/-- The entry a pass serves next, with its position, where a pass is in progress and has one left (R139). -/
def PollEngine.nextEntry (p : PollEngine) : Option (Nat × PlanEntry) :=
  match p.pass with
  | none => none
  | some k => if k = 0 then none else (p.active[k - 1]?).map fun e => (k, e)

/-- The car a WAITING manual request names (R144). -/
def ManualSlot.waitingCar : ManualSlot → Option Nat
  | .empty => none
  | .waiting k => some k
  | .inFlight _ => none

/-- A byte of the reply taken (R123). -/
def Exchange.add (e : Exchange) (b : Byte) (stopOk : Bool) : Exchange :=
  { e with received := e.received ++ [b], framingError := e.framingError || !stopOk }

/-- Whether the next byte reaches the length of the expected reply (R123). -/
def Exchange.lastComing (e : Exchange) : Bool := decide (e.kind.replyLength ≤ e.received.length + 1)

/-- The exchange whose reply is being received, if the bus is RECEIVING (R123). -/
def PollEngine.receivingExchange (p : PollEngine) : Option Exchange := if p.phase = .receiving then p.exchange else none

/-- The exchange whose reply is awaited, if the bus is AWAITING (R122). -/
def PollEngine.awaitingExchange (p : PollEngine) : Option Exchange := if p.phase = .awaiting then p.exchange else none

end Sys2Proof.Machine
end

