-- ==== Sys2Proof/Machine/BusEvents.lean ====
section
/-! DEFINITION. The rows of the tilt bus: PLAN_ENTRY_SERVED, MANUAL_EXCHANGE_START, FRAME_SENT, REPLY_START_BIT,
REPLY_BYTE_TAKEN, REPLY_RECEIVED, REPLY_CUT_SHORT, REPLY_TIMEOUT and SETTLING_DONE (R121 to R127, R139, R144). -/

namespace Sys2Proof.Machine

/-- The frame of a plan entry started for a car of an address at a place: values and flags formed, the setpoint and the
marks of the carried flags written, the pass advanced, the exchange in flight (R98, R105, R112, R121, R139). -/
def State.serveEntry (s : State) (position : Nat) (e : PlanEntry) (address : Nat) (p : Int) : State :=
  (s.setDemand (s.demand.putCar e.car fun c => c.send (s.setpoint e.car p))).setPoll
    { s.poll.startFrame (newExchange .plan e.car address s.poll.replyTimeout .setpoint)
        (.setpoint address (s.frameFlags e.car p e.span) (s.frameValues e.car p e.span)) with
      pass := some (position + 1) }

/-- The next entry of the pass, the car it names and that car's position from the snapshot, where the bus stands free
for its frame (R92, R139). -/
def State.servable (s : State) : Option (Nat × PlanEntry × Car × Int) :=
  if s.poll.free then
    match s.poll.nextEntry with
    | none => none
    | some (k, e) =>
      match s.demand.car? e.car, s.carPositionOf s.position.snapshot.lead e.car with
      | some car, some p => some (k, e, car, p)
      | some _, none => none
      | none, _ => none
  else none

/-- PLAN_ENTRY_SERVED (R139). Where no pass has an entry left or the bus is not free, nothing is started (log 3). -/
def execPlanEntryServed (s : State) : Host.Outcome State Fault Refusal :=
  unlessHeld s
    (match s.servable with
    | none => s
    | some (k, e, car, p) => s.serveEntry k e car.address p)

/-- The inquiry frame of a manual request started for a car of an address (R121, R144). -/
def State.startInquiry (s : State) (k address : Nat) : State :=
  s.setPoll
    { s.poll.startFrame (newExchange .manual k address s.poll.replyTimeout .inquiry) (.inquiry address) with
      manual := .inFlight k }

/-- The car of a WAITING request, where no pass is in progress, no exchange is in flight and the bus is IDLE (R144). -/
def State.startableRequest (s : State) : Option (Nat × Car) :=
  if s.poll.free && s.poll.pass.isNone then
    match s.poll.manual.waitingCar with
    | none => none
    | some k => (s.demand.car? k).map fun car => (k, car)
  else none

/-- MANUAL_EXCHANGE_START (R144). Where the three conditions do not all hold, nothing is started (log 3). -/
def execManualExchangeStart (s : State) : Host.Outcome State Fault Refusal :=
  unlessHeld s
    (match s.startableRequest with
    | none => s
    | some (k, car) => s.startInquiry k car.address)

/-- FRAME_SENT: the driver is released and the reply wait begins (R122). -/
def execFrameSent (s : State) : Host.Outcome State Fault Refusal :=
  unlessHeld s (if s.poll.phase = .sending then s.setPoll { s.poll with phase := .awaiting } else s)

/-- REPLY_START_BIT: the reply begins; outside AWAITING a start bit belongs to no wait (R122, R127). -/
def execReplyStartBit (s : State) : Host.Outcome State Fault Refusal :=
  unlessHeld s (if s.poll.phase = .awaiting then s.setPoll { s.poll with phase := .receiving } else s)

/-- A byte of the reply taken: judged with it where it reaches the expected length (R123; log 10). -/
def State.replyByte (s : State) (e : Exchange) (b : Byte) (stopOk : Bool) : State :=
  if e.lastComing then s.takeReply (e.add b stopOk)
  else s.setPoll { s.poll with exchange := some (e.add b stopOk) }

/-- REPLY_BYTE_TAKEN; outside RECEIVING a byte is discarded (R123, R127). -/
def execReplyByteTaken (b : Byte) (stopOk : Bool) (s : State) : Host.Outcome State Fault Refusal :=
  unlessHeld s
    (match s.poll.receivingExchange with
    | none => s
    | some e => s.replyByte e b stopOk)

/-- REPLY_RECEIVED: the byte that reaches the expected length is taken, and the reply judged with it (R123 to R126; log
10). Where no byte can do so now, nothing happens (log 3). -/
def execReplyReceived (b : Byte) (stopOk : Bool) (s : State) : Host.Outcome State Fault Refusal :=
  unlessHeld s
    (match s.poll.receivingExchange with
    | none => s
    | some e => if e.lastComing then s.takeReply (e.add b stopOk) else s)

/-- REPLY_CUT_SHORT: after a byte of the reply, the next did not come in time; the short reply is judged (R123,
R124). -/
def execReplyCutShort (s : State) : Host.Outcome State Fault Refusal :=
  unlessHeld s
    (match s.poll.receivingExchange with
    | none => s
    | some e => if e.received = [] then s else s.takeReply e)

/-- REPLY_TIMEOUT: the reply wait expires with no start bit (R122). -/
def execReplyTimeout (s : State) : Host.Outcome State Fault Refusal :=
  unlessHeld s
    (match s.poll.awaitingExchange with
    | none => s
    | some e => s.takeOutcome e .timeout none)

/-- SETTLING_DONE: the bus becomes IDLE (R127). -/
def execSettlingDone (s : State) : Host.Outcome State Fault Refusal :=
  unlessHeld s (if s.poll.phase = .settling then s.setPoll { s.poll with phase := .idle } else s)

end Sys2Proof.Machine
end

