-- ==== Sys2Proof/Machine/Fence.lean ====
section
/-! DEFINITION. The fence (R69): the snapshot (R5, R6), the Curve Table's slot work (R73 to R78), its reports (R80 to
R84), the latching of CHANGED (R110), and the swap and the new pass (R71, R137, R138, R140). -/

namespace Sys2Proof.Machine

/-! ### The snapshot -/

/-- The snapshot speed for a cycle of a length in ms (R6). -/
def PositionUnit.speedOver (p : PositionUnit) (length : Nat) : Nat :=
  if p.firstFence then 0 else min (wholeCm p.cycleDistance.natAbs * 1000 / length) 65535

/-- The Position Unit at a fence that ends a cycle of a length in ms (R5). -/
def PositionUnit.takeSnapshot (p : PositionUnit) (length : Nat) : PositionUnit :=
  { p with
    snapshot := { lead := wholeCm p.rp, speed := p.speedOver length, lock := p.lock }
    cycleDistance := 0
    firstFence := false }

/-! ### The position test and the slot work -/

/-- The results of the position test (R73). -/
inductive PositionTest where
  | inside
  | behind
  | clear
  deriving DecidableEq, Repr

/-- The position test of an image against the cars' positions and the rear position (R73). -/
def positionTest (travel : TravelSense) (cars : List Int) (rear : Option Int) (r : Record) : PositionTest :=
  if cars.any r.covers then .inside
  else if rear.any (r.behind travel) then .behind
  else .clear

/-- What the slot work of a fence makes of one slot. -/
structure SlotWork where
  slot : Slot
  changed : Bool
  extents : List Extent
  returned : Nat
  retired : Bool
  faded : Bool
  deriving DecidableEq, Repr

/-- A slot the fence leaves in the state and with the live image it had. -/
def SlotWork.kept (s : Slot) : SlotWork :=
  { slot := s, changed := false, extents := [], returned := 0, retired := false, faded := false }

/-- A slot freed at the fence: its points return and its live image's extent is handed on (R28, R81). -/
def SlotWork.freed (r : Record) (retired faded : Bool) : SlotWork :=
  { slot := .freed, changed := true, extents := [r.extent], returned := r.points, retired := retired, faded := faded }

/-- The extents a publication hands on: the new image's, and the replaced one's where it differs (R81). -/
def publishedExtents (old : Option Record) (r : Record) : List Extent :=
  match old with
  | none => [r.extent]
  | some o => if o.extent = r.extent then [r.extent] else [r.extent, o.extent]

/-- A slot whose pending image is published at lead position p (R74). -/
def Slot.publish (s : Slot) (r : Record) (p : Nat) (status : PositionStatus) (activated : Option Nat) : Slot :=
  { s with
    live := some r
    pending := .none
    status := status
    confirmed := false
    publishedAt := some p
    activatedAt := activated
    confirmedAt := none }

/-- A pending image met at a fence (R74). -/
def Slot.publication (s : Slot) (test : Record → PositionTest) (p : Nat) (r : Record) : SlotWork :=
  let extents := publishedExtents s.live r
  match test r with
  | .inside =>
    { slot := s.publish r p .active (some p), changed := true, extents := extents, returned := imagePoints s.live,
      retired := false, faded := false }
  | .clear =>
    { slot := s.publish r p .armed none, changed := true, extents := extents, returned := imagePoints s.live,
      retired := false, faded := false }
  | .behind =>
    { slot := .freed, changed := true, extents := extents, returned := imagePoints s.live + r.points,
      retired := true, faded := false }

/-- A pending withdrawal met at a fence (R75). -/
def Slot.withdrawn (s : Slot) (running : Bool) (test : Record → PositionTest) (r : Record) : SlotWork :=
  match test r with
  | .inside =>
    if running then
      { slot := { s with pending := .none, fade := some fullFade }, changed := true, extents := [], returned := 0,
        retired := false, faded := false }
    else .freed r false false
  | .clear => .freed r false false
  | .behind => .freed r false false

/-- A FADING slot met at a fence (R76). -/
def Slot.fadeStep (s : Slot) (running : Bool) (test : Record → PositionTest) (r : Record) (level : Nat) : SlotWork :=
  match test r with
  | .behind => .freed r true false
  | .inside => if running && decide (1 < level) then .kept { s with fade := some (level - 1) } else .freed r false true
  | .clear => if running && decide (1 < level) then .kept { s with fade := some (level - 1) } else .freed r false true

/-- The first of two stamps that is present. -/
def stampOnce (old : Option Nat) (p : Nat) : Option Nat :=
  match old with
  | none => some p
  | some q => some q

/-- A live slot untouched by staging met at a fence (R77). -/
def Slot.judge (s : Slot) (test : Record → PositionTest) (p : Nat) (r : Record) : SlotWork :=
  match test r with
  | .inside =>
    { SlotWork.kept { s with status := .active, activatedAt := stampOnce s.activatedAt p } with
      changed := decide (s.status ≠ .active) }
  | .clear => { SlotWork.kept { s with status := .armed } with changed := decide (s.status ≠ .armed) }
  | .behind => .freed r true false

/-- The slot work of one slot (R74 to R78). -/
def Slot.fence (s : Slot) (running : Bool) (test : Record → PositionTest) (p : Nat) : SlotWork :=
  match s.pending, s.live with
  | .image r, _ => s.publication test p r
  | .withdrawal, some r => s.withdrawn running test r
  | .withdrawal, none => .kept s
  | .none, none => .kept s
  | .none, some r =>
    match s.fade with
    | some level => s.fadeStep running test r level
    | none => s.judge test p r

/-! ### The table at the fence -/

/-- The position test of a state's snapshot (R73). -/
def State.positionTest (s : State) : Record → PositionTest :=
  Machine.positionTest s.position.travel (s.carPositions s.position.snapshot.lead)
    (s.rearPosition s.position.snapshot.lead)

/-- The slot work of every slot of a state, whose snapshot is this fence's (R74 to R78). -/
def State.slotWorks (s : State) : List SlotWork :=
  s.table.slots.map fun x => x.fence (decide (s.mode.mode = .running)) s.positionTest s.position.snapshot.lead

/-- The horizon is short of a setting in m (R84). -/
def horizonShortOf (setting : Nat) (distance : Option Int) : Bool :=
  match distance with
  | none => true
  | some d => decide (d < (setting * 100 : Nat))

/-- The Curve Table with the slot work done and the bitmap and changed extents formed (R80, R81). -/
def CurveTable.afterWork (t : CurveTable) (works : List SlotWork) : CurveTable :=
  { t with
    slots := works.map SlotWork.slot
    poolFree := t.poolFree + (works.map SlotWork.returned).sum
    bitmap := List.zipWith (fun b w => b || w.changed) t.bitmap works
    changedExtents := works.flatMap SlotWork.extents }

/-- Whether the horizon is short at a fence (R84). -/
def CurveTable.isShort (t : CurveTable) (travel : TravelSense) (lead : Nat) : Bool :=
  decide (t.horizonSetting ≠ 0)
    && horizonShortOf t.horizonSetting ((t.reachNow travel).map fun r => horizonDistance travel lead r)

/-- The Curve Table with the reach formed and the horizon judged (R83, R84). -/
def CurveTable.judgeHorizon (t : CurveTable) (travel : TravelSense) (lead : Nat) : CurveTable :=
  { t with reach := t.reachNow travel, horizonShort := t.isShort travel lead }

/-- The Curve Table's work at a fence whose snapshot has been taken (R74 to R84). -/
def State.fenceTable (s : State) : State :=
  let works := s.slotWorks
  let worked := s.table.afterWork works
  let judged := worked.judgeHorizon s.position.travel s.position.snapshot.lead
  (((s.setTable judged).raiseIf (works.any SlotWork.retired) .retired).raiseIf (works.any SlotWork.faded)
    .fadeDone).raiseIf (judged.horizonShort && !s.table.horizonShort) .horizonShort

/-! ### The Poll Engine and the timer at the fence -/

/-- The active plan a fence leaves: the standby plan's entries where it is READY (R137). -/
def PollEngine.swapped (p : PollEngine) : List PlanEntry := p.standby.getD p.active

/-- The Poll Engine's swap and new pass at a fence (R137, R138). -/
def PollEngine.fence (p : PollEngine) : PollEngine :=
  { p with active := p.swapped, standby := none, pass := if p.swapped = [] then none else some 1 }

/-- The fence's overrun, swap and new pass (R71, R137, R138, R140). -/
def State.fencePlans (s : State) : State :=
  (((s.setTimer
    { s.timer with
      overruns := if s.poll.pass.isSome then bump s.timer.overruns else s.timer.overruns }).setPoll s.poll.fence).raiseIf
    s.poll.pass.isSome .overrun).raiseIf s.poll.standby.isSome .swapped

/-- The expiry: FENCE is pulsed and the next cycle begins with the period in force (R69). -/
def CycleTimer.expire (t : CycleTimer) : CycleTimer :=
  { t with cycleLength := some t.period, fencePulses := t.fencePulses + 1 }

/-- The snapshot of a fence, and the timer's expiry (R5, R6, R69). -/
def State.fenceSnapshot (s : State) : State :=
  (s.setPosition (s.position.takeSnapshot (s.timer.cycleLength.getD s.timer.period))).setTimer s.timer.expire

/-- The fence: snapshot, table, CHANGED, plans (R69). -/
def State.takeFence (s : State) : State := s.fenceSnapshot.fenceTable.latchChanged.fencePlans

/-- FENCE (R69). While the Cycle Timer is stopped no expiry occurs (R67; log 3). -/
def execFence (s : State) : Host.Outcome State Fault Refusal :=
  unlessHeld s (if s.timer.running then s.takeFence else s)

end Sys2Proof.Machine
end

