-- ==== Sys2Proof/Machine/LinkEvents.lean ====
section
/-! DEFINITION. The rows of the route link: LINK_CHARACTER, FRAME_CLOSED, FRAME_ABORTED and ANSWER_SENT (R162 to R166). -/

namespace Sys2Proof.Machine

/-- The judgement of a frame (R164). -/
inductive FrameJudgement where
  | ignored
  | notTaken (status : AnswerStatus) (echo : Byte)
  | taken (code : Byte) (content : List Byte)
  deriving DecidableEq, Repr

/-- The address byte names the part: its upper six bits equal LADDR and its lowest two are 0 (R164). -/
def namesPart (t : Straps) (content : List Byte) : Bool :=
  match content with
  | [] => false
  | a :: _ => a = addressByte t

/-- The second content byte, or 0 (R164). -/
def echoByte (content : List Byte) : Byte := byteAt content 1

/-- The bytes of a frame's content that are kept (R162). -/
def contentKept : Nat := 64

/-- A frame closed by a flag, judged; `badFlag` says that the closing flag marks it as failing its check (R164). -/
def judgeClosed (t : Straps) (r : Receiver) (badFlag : Bool) : FrameJudgement :=
  if !namesPart t r.content then .ignored
  else if r.count < 4 then .ignored
  else if contentKept < r.count then .notTaken .longFrame (echoByte r.content)
  else if r.stopBad || badFlag || !checkAgrees r.content then .notTaken .failedCheck (echoByte r.content)
  else .taken (echoByte r.content) r.content

/-- A frame aborted, judged (R164). -/
def judgeAborted (t : Straps) (r : Receiver) : FrameJudgement :=
  if namesPart t r.content then .notTaken .abortedFrame (echoByte r.content) else .ignored

/-- A NOT_TAKEN frame that finds the port IDLE: buffered, answered by the port itself, counted, FRAME_BAD raised (R164,
R165). -/
def LinkPort.answerNotTaken (l : LinkPort) (content : List Byte) (t : AnswerStatus) (echo : Byte) : LinkPort :=
  ({ l with buffer := some (.frame content), notTaken := bump l.notTaken }.respond
    { code := echo, status := t, result := .notTaken, payload := .empty }).raise .frameBad

/-- A Taken frame that finds the port IDLE: buffered and counted, the port ACTING (R164, R165). -/
def LinkPort.takeFrame (l : LinkPort) (content : List Byte) : LinkPort :=
  { l with phase := .acting, buffer := some (.frame content), taken := bump l.taken }

/-- A Taken frame dealt with: an unknown code and a mode that does not allow the command are answered; any other
command waits, ACTING, for its block, whose row it is (R166, R176; log 4). -/
def State.dealFrame (s : State) (code : Byte) (content : List Byte) : State :=
  let taken := s.setLink (s.link.takeFrame content)
  match CommandCode.ofByte code with
  | none =>
    taken.setLink (taken.link.respond { code := code, status := .taken, result := .unknownCommand, payload := .empty })
  | some c => if c.available s.mode.mode then taken else taken.answer c .wrongMode .empty

/-- A judged frame received: ignored, dropped by a busy port, answered NOT_TAKEN, or dealt with (R164 to R166, R183). -/
def State.receive (s : State) (j : FrameJudgement) (content : List Byte) : State :=
  match j with
  | .ignored => s
  | .notTaken t echo =>
    if s.portBusy then s.setLink s.link.drop else s.setLink (s.link.answerNotTaken content t echo)
  | .taken code kept => if s.portBusy then s.setLink s.link.drop else s.dealFrame code kept

/-- A receiver that has just taken a flag: in FRAME with an empty content; `bad` says that the flag's own stop bit marks
the frame it opens (R162; log 9). -/
def Receiver.opened (bad : Bool) : Receiver where
  phase := .frame
  content := []
  count := 0
  stopBad := bad

/-- Whether a flag marks the frame it closes (R161; log 9). -/
def flagMarksClosed (stopOk : Bool) : Bool := if stopOk then false else Config.badFlagMarksClosedFrame

/-- Whether a flag marks the frame it opens (R161; log 9). -/
def flagMarksOpened (stopOk : Bool) : Bool := if stopOk then false else Config.badFlagMarksOpenedFrame

/-- The receiver of a state replaced. -/
def State.setReceiver (s : State) (r : Receiver) : State := s.setLink { s.link with receiver := r }

/-- A flag taken in FRAME: the frame is judged, and a new one opened (R162). -/
def State.closeFrame (s : State) (stopOk : Bool) : State :=
  (s.setReceiver (.opened (flagMarksOpened stopOk))).receive
    (judgeClosed s.straps s.link.receiver (flagMarksClosed stopOk)) s.link.receiver.content

/-- A flag taken in ESCAPE: the frame is judged as aborted, and a new one opened (R162). -/
def State.abortFrame (s : State) (stopOk : Bool) : State :=
  (s.setReceiver (.opened (flagMarksOpened stopOk))).receive
    (judgeAborted s.straps s.link.receiver) s.link.receiver.content

/-- A character added to the content, of which the first 64 bytes are kept (R162). -/
def Receiver.add (r : Receiver) (c : Byte) (stopOk : Bool) : Receiver where
  phase := .frame
  content := if r.content.length < contentKept then r.content ++ [c] else r.content
  count := r.count + 1
  stopBad := r.stopBad || !stopOk

/-- A character taken on LINK_RX (R161, R162). -/
def State.linkCharacter (s : State) (c : Byte) (stopOk : Bool) : State :=
  match s.link.receiver.phase with
  | .hunt => if c = linkFlag then s.setReceiver (.opened (flagMarksOpened stopOk)) else s
  | .frame =>
    if c = linkFlag then s.closeFrame stopOk
    else if c = linkEscape then
      s.setReceiver { s.link.receiver with phase := .escape, stopBad := s.link.receiver.stopBad || !stopOk }
    else s.setReceiver (s.link.receiver.add c stopOk)
  | .escape =>
    if c = linkFlag then s.abortFrame stopOk else s.setReceiver (s.link.receiver.add (c ^^^ 0x20#8) stopOk)

/-- LINK_CHARACTER (R162). -/
def execLinkCharacter (c : Byte) (stopOk : Bool) (s : State) : Host.Outcome State Fault Refusal :=
  unlessHeld s (s.linkCharacter c stopOk)

/-- FRAME_CLOSED: a flag taken in FRAME (R164; log 10). In the other phases no frame closes (log 3). -/
def execFrameClosed (stopOk : Bool) (s : State) : Host.Outcome State Fault Refusal :=
  unlessHeld s (if s.link.receiver.phase = .frame then s.closeFrame stopOk else s)

/-- FRAME_ABORTED: a flag taken in ESCAPE (R162, R164; log 10). In the other phases no frame is aborted (log 3). -/
def execFrameAborted (stopOk : Bool) (s : State) : Host.Outcome State Fault Refusal :=
  unlessHeld s (if s.link.receiver.phase = .escape then s.abortFrame stopOk else s)

/-- A software reset that waited for its answer falls due (R166, R183; log 14). -/
def ResetStage.answered : ResetStage → ResetStage
  | .none => .none
  | .answering => .due
  | .due => .due

/-- The answer's closing flag sent: the buffer is emptied and the port IDLE (R165). -/
def State.endAnswer (s : State) : State :=
  (s.setLink { s.link with phase := .idle, buffer := none, answer := none }).setMode
    { s.mode with resetStage := s.mode.resetStage.answered }

/-- ANSWER_SENT (R165). Where no answer is being sent, nothing ends (log 3). -/
def execAnswerSent (s : State) : Host.Outcome State Fault Refusal :=
  unlessHeld s (if s.link.phase = .answering then s.endAnswer else s)

end Sys2Proof.Machine
end

