-- ==== Sys2Proof/Machine/Markers.lean ====
section
/-! DEFINITION. The odometer and marker rows: ODOMETER_PULSE, FIX_INTERVAL_EXPIRY, HOLD_EXPIRY, MARKER_STROBE,
MARKER_BYTE, MARKER_MESSAGE and MARKER_MESSAGE_CUT_SHORT (R2, R3, R8 to R14, R174, R181). -/

namespace Sys2Proof.Machine

/-! ### The odometer -/

/-- The distance of a pulse, forward positive (R3). -/
def PositionUnit.pulseDistance (p : PositionUnit) (d : Direction) : Int :=
  match d with
  | .forward => p.calibration
  | .backward => -(p.calibration : Int)

/-- A pulse taken by the Position Unit: RP, cycle distance and fix distance move (R2, R3). -/
def PositionUnit.pulse (p : PositionUnit) (d : Direction) : PositionUnit :=
  { p with
    rp := holdPosition (ahead p.travel p.rp (p.pulseDistance d))
    cycleDistance := holdSigned (p.cycleDistance + p.pulseDistance d)
    fixDistance := satDistance (p.fixDistance + p.calibration) }

/-- The magnitude of a pulse counted towards the hold distance, in HOLD alone (R3, R175). -/
def ModeControl.travel (m : ModeControl) (distance : Nat) : ModeControl :=
  if m.mode = .hold then { m with holdTravelled := satDistance (m.holdTravelled + distance) } else m

/-- The distances a pulse moves, before the two checks it makes (R2, R3). -/
def State.movePulse (s : State) (d : Direction) : State :=
  (s.setPosition (s.position.pulse d)).setMode (s.mode.travel s.position.calibration)

/-- ODOMETER_PULSE: the distances move; then the fix interval limit and the hold distance are checked (R2, R3, R14,
R181). -/
def execOdometerPulse (d : Direction) (s : State) : Host.Outcome State Fault Refusal :=
  unlessHeld s (s.movePulse d).checkInterval.checkHold

/-- FIX_INTERVAL_EXPIRY: the fix distance has passed the limit in LOCKED (R14). A pulse and SETFIX make the same check
themselves. -/
def execFixIntervalExpiry (s : State) : Host.Outcome State Fault Refusal := unlessHeld s s.checkInterval

/-- HOLD_EXPIRY: the hold distance travelled has passed the hold distance (R181). A pulse makes the same check
itself. -/
def execHoldExpiry (s : State) : Host.Outcome State Fault Refusal := unlessHeld s s.checkHold

/-! ### The strobe -/

/-- Where the antenna stands, from the whole-cm part of RP (R8). -/
def State.antenna (s : State) : Int := ahead s.position.travel s.leadCm (-(s.demand.readerOffset : Int))

/-- A strobe: it fills the latch, or overwrites it and is counted (R8). -/
def State.strobe (s : State) : State :=
  (s.setPosition { s.position with
    latch := some s.antenna
    markerOverruns := if s.position.latch.isSome then bump s.position.markerOverruns else s.position.markerOverruns }).raiseIf
    s.position.latch.isSome .markerOverrun

/-- MARKER_STROBE (R8). -/
def execMarkerStrobe (s : State) : Host.Outcome State Fault Refusal := unlessHeld s s.strobe

/-! ### The fix -/

/-- Whether a slot's live image carries a marker id (R10). -/
def Slot.liveMarker (s : Slot) : Option Marker := s.live.bind Record.marker

/-- The slot whose live image carries a marker id (R10, R35). -/
def CurveTable.slotOfMarker (t : CurveTable) (id : Nat) : Option Nat :=
  lowestSlot (fun _ s => s.liveMarker.any fun m => m.id = id) 0 t.slots

/-- Whether a fix is applied: the table of R12. -/
def PositionUnit.accepts (p : PositionUnit) (e : Int) : Bool :=
  match p.lock with
  | .noFix => true
  | .locked => decide (e.natAbs ≤ p.window)
  | .doubt => decide (e.natAbs ≤ p.window) || p.candidate.any fun c => decide ((e - c).natAbs ≤ p.window)

/-- RP after a correction of e cm; the fraction is kept (R13). -/
def PositionUnit.corrected (p : PositionUnit) (e : Int) : Nat := holdPosition (p.rp + e * 256)

/-- A slot confirmed at a position (R31). -/
def Slot.confirm (s : Slot) (at_ : Nat) : Slot := { s with confirmed := true, confirmedAt := some at_ }

/-- A fix applied against the live image of a slot (R13). -/
def State.applyFix (s : State) (slot : Nat) (e : Int) : State :=
  (((s.setPosition { s.position with rp := s.position.corrected e, fixDistance := 0, candidate := none }).setTable
    (s.table.putSlot slot ((s.table.slot slot).confirm (wholeCm (s.position.corrected e))))).setDemand
    s.demand.latchFixed).setLock .locked

/-- A fix not applied: it becomes the candidate; in LOCKED the lock becomes DOUBT and FIX_REJECTED is raised (R12). -/
def State.rejectFix (s : State) (e : Int) : State :=
  ((s.setPosition { s.position with candidate := some e }).raiseIf (decide (s.position.lock = .locked))
    .fixRejected).setLock .doubt

/-- A matched fix judged (R12). -/
def State.judgeFix (s : State) (slot : Nat) (e : Int) : State :=
  if s.position.accepts e then s.applyFix slot e else s.rejectFix e

/-! ### The message -/

/-- The Position Unit with no message in reception. -/
def PositionUnit.endReception (p : PositionUnit) : PositionUnit := { p with reception := none }

/-- A message discarded for a failed check: counted, and the latch emptied (R9). -/
def State.discardFailed (s : State) : State :=
  s.setPosition { s.position.endReception with bad := bump s.position.bad, latch := none }

/-- A message discarded for want of a latched strobe (R9). -/
def State.discardUnpaired (s : State) : State :=
  s.setPosition { s.position.endReception with bad := bump s.position.bad }

/-- A message whose id no live image carries (R10). -/
def State.unmatched (s : State) : State :=
  (s.setPosition { s.position.endReception with unmatched := bump s.position.unmatched, latch := none }).raise
    .markerUnmatched

/-- The marker position of the live image of a slot, 0 where it has none. -/
def CurveTable.markerPosition (t : CurveTable) (i : Nat) : Nat := ((t.slot i).liveMarker.map Marker.position).getD 0

/-- A message taken whole: checked, paired with the latch, looked up among the live images, and its fix judged (R9,
R10, R12). -/
def State.takeMessage (s : State) (m : MarkerReception) : State :=
  if m.good then
    match s.position.latch with
    | none => s.discardUnpaired
    | some antenna =>
      match s.table.slotOfMarker m.id with
      | none => s.unmatched
      | some i =>
        (s.setPosition { s.position.endReception with latch := none }).judgeFix i
          ((s.table.markerPosition i : Int) - antenna)
  else s.discardFailed

/-- A byte added to a message in reception (R174). -/
def MarkerReception.add (m : MarkerReception) (b : Byte) (stopOk : Bool) : MarkerReception where
  bytes := m.bytes ++ [b]
  stopBad := m.stopBad || !stopOk

/-- Whether the next byte completes the message (R174). -/
def MarkerReception.lastComing (m : MarkerReception) : Bool := decide (markerMessageLength ≤ m.bytes.length + 1)

/-- A byte taken on MK_RX: discarded, beginning a message, added to it, or completing it (R174; log 10). -/
def State.markerByte (s : State) (b : Byte) (stopOk : Bool) : State :=
  match s.position.reception with
  | none =>
    if b = startMark then
      s.setPosition { s.position with reception := some { bytes := [b], stopBad := !stopOk } }
    else s
  | some m =>
    if m.lastComing then s.takeMessage (m.add b stopOk)
    else s.setPosition { s.position with reception := some (m.add b stopOk) }

/-- MARKER_BYTE (R174). -/
def execMarkerByte (b : Byte) (stopOk : Bool) (s : State) : Host.Outcome State Fault Refusal :=
  unlessHeld s (s.markerByte b stopOk)

/-- MARKER_MESSAGE: the byte that completes the message in reception is taken, and the message with it (R9, R10, R174;
log 10). Where no byte can complete a message now, nothing happens (log 3). -/
def execMarkerMessage (b : Byte) (stopOk : Bool) (s : State) : Host.Outcome State Fault Refusal :=
  unlessHeld s
    (match s.position.reception with
    | none => s
    | some m => if m.lastComing then s.takeMessage (m.add b stopOk) else s)

/-- MARKER_MESSAGE_CUT_SHORT: the message in reception is handled as one whose check has failed (R9, R174). -/
def execMarkerMessageCutShort (s : State) : Host.Outcome State Fault Refusal :=
  unlessHeld s (if s.position.reception.isSome then s.discardFailed else s)

end Sys2Proof.Machine
end

