-- ==== Sys2Proof/Machine/ModeCommands.lean ====
section
/-! DEFINITION. The mode commands START, RUN, STBY, HOLD, STOP, RESET and RDSTAT (R177 to R184). -/

namespace Sys2Proof.Machine

/-- The mode of a state replaced. -/
def State.enterMode (s : State) (m : Mode) : State := s.setMode { s.mode with mode := m }

/-- What START does with a composition held (R68, R177). -/
def State.startCycling (s : State) : State :=
  ((s.enterMode .standby).setTimer { s.timer with running := true, cycleLength := some s.timer.period }).setPosition
    { s.position with firstFence := true, cycleDistance := 0 }

/-- START's act (R177). -/
def actStart (_ : Unit) (s : State) : CommandResult :=
  match s.demand.composition with
  | none => .refuse s .noComposition
  | some _ => .done s.startCycling

/-- START (R177). -/
def execStart (p : Payload Unit) (s : State) : Host.Outcome State Fault Refusal :=
  runCommand .start (.start p) (withParameters p actStart) s

/-- RUN's act (R178). -/
def actRun (_ : Unit) (s : State) : CommandResult :=
  if s.mode.mode = .running then .refuse s .already else .done (s.enterMode .running)

/-- RUN (R178). -/
def execRun (p : Payload Unit) (s : State) : Host.Outcome State Fault Refusal :=
  runCommand .run (.run p) (withParameters p actRun) s

/-- STBY's act (R179). -/
def actStby (_ : Unit) (s : State) : CommandResult :=
  if s.mode.mode = .standby then .refuse s .already else .done (s.enterMode .standby)

/-- STBY (R179). -/
def execStby (p : Payload Unit) (s : State) : Host.Outcome State Fault Refusal :=
  runCommand .stby (.stby p) (withParameters p actStby) s

/-- The greatest hold distance, in m (R175). -/
def maxHoldDistance : Nat := 5000

/-- HOLD's act (R180). -/
def actHold (distance : Nat) (s : State) : CommandResult :=
  if maxHoldDistance < distance then .refuse s .badParam
  else
    { state := s.setMode { s.mode with mode := .hold, holdDistance := distance, holdTravelled := 0 }
      result := .done
      payload := .value distance }

/-- HOLD (R180). -/
def execHold (p : Payload Nat) (s : State) : Host.Outcome State Fault Refusal :=
  runCommand .hold (.hold p) (withParameters p actHold) s

/-- The Curve Table that STOP leaves: every slot freed, no assembly, no coverage, the mark clear; the horizon setting
and the changed-slot bitmap kept (R42, R182). -/
def CurveTable.stopped (t : CurveTable) : CurveTable :=
  { t with
    slots := List.replicate slotCount Slot.freed
    poolFree := poolSize
    assembly := none
    coverage := none
    horizonShort := false }

/-- The Poll Engine that STOP leaves: no pass, and no WAITING request (R129, R142, R182). -/
def PollEngine.stopped (p : PollEngine) : PollEngine :=
  { p with
    pass := none
    manual := match p.manual with
      | .empty => .empty
      | .waiting _ => .empty
      | .inFlight k => .inFlight k }

/-- What STOP does in STANDBY and HOLD (R182). -/
def State.stopCycling (s : State) : State :=
  (((s.enterMode .config).setTimer { s.timer with running := false, cycleLength := none }).setTable
    s.table.stopped).setPoll s.poll.stopped

/-- STOP's act (R182). -/
def actStop (_ : Unit) (s : State) : CommandResult :=
  if s.mode.mode = .config then .refuse s .already else .done s.stopCycling

/-- STOP (R182). -/
def execStop (p : Payload Unit) (s : State) : Host.Outcome State Fault Refusal :=
  runCommand .stop (.stop p) (withParameters p actStop) s

/-- RESET's act: the software reset waits for the answer (R166, R183; log 14). -/
def actReset (_ : Unit) (s : State) : CommandResult := .done (s.setMode { s.mode with resetStage := .answering })

/-- RESET (R183). -/
def execReset (p : Payload Unit) (s : State) : Host.Outcome State Fault Refusal :=
  runCommand .reset (.reset p) (withParameters p actReset) s

/-- How the result record stands (R148). -/
def ResultRecord.standing : ResultRecord → ResultStanding
  | .empty => .empty
  | .unread _ => .unread
  | .read _ => .read

/-- The plan state of RDSTAT (R148). -/
def State.planReport (s : State) : PlanReport where
  activeCount := s.poll.active.length
  standbyReady := s.poll.standby.isSome
  standbyCount := (s.poll.standby.getD []).length
  pass := s.poll.pass
  manual := s.poll.manual
  result := s.poll.result.standing
  inFlight := s.poll.exchange.map fun e => (e.origin, e.car)
  overruns := s.timer.overruns

/-- The hold distance left, in whole cm (R184). -/
def ModeControl.holdLeft (m : ModeControl) : Int :=
  if m.mode = .hold ∧ m.holdDistance ≠ 0 then (m.holdDistance * 100 : Nat) - (wholeCm m.holdTravelled : Int) else 0

/-- The answer of RDSTAT (R184). -/
def State.statusReport (s : State) : StatusReport where
  mode := s.mode.mode
  lock := s.position.lock
  counts := slotCounts s.table.slots
  timerRunning := s.timer.running
  period := s.timer.period
  plan := s.planReport
  holdDistance := s.mode.holdDistance
  holdLeft := s.mode.holdLeft

/-- RDSTAT's act (R184). -/
def actRdstat (_ : Unit) (s : State) : CommandResult :=
  { state := s, result := .done, payload := .status s.statusReport }

/-- RDSTAT (R184). -/
def execRdstat (p : Payload Unit) (s : State) : Host.Outcome State Fault Refusal :=
  runCommand .rdstat (.rdstat p) (withParameters p actRdstat) s

end Sys2Proof.Machine
end

