-- ==== Sys2Proof/Machine/PlanCommands.lean ====
section
/-! DEFINITION. The commands of the Poll Engine, the Health Unit and attention: LDPLAN, CANPLAN, CANSTBY, XCHG, CANXCHG,
RDXCHG, RESTORE, RDATT and SETMASK (R135, R136, R141, R143, R145, R147, R155, R170, R171). -/

namespace Sys2Proof.Machine

/-! ### Plans -/

/-- LDPLAN's act (R135). -/
def actLdplan (payload : List Byte) (s : State) : CommandResult :=
  match parsePlan s.demand.carCount payload with
  | .error (reason, position) => { state := s, result := .badParam, payload := .planReason reason position }
  | .ok entries =>
    { state := s.setPoll { s.poll with standby := some entries }
      result := if s.poll.standby.isSome then .replaced else .done
      payload := .value entries.length }

/-- LDPLAN (R135). -/
def execLdplan (payload : List Byte) (s : State) : Host.Outcome State Fault Refusal :=
  runCommand .ldplan (.ldplan payload) (actLdplan payload) s

/-- CANPLAN's act (R141). -/
def actCanplan (_ : Unit) (s : State) : CommandResult :=
  if s.poll.active = [] then .refuse s .already else .done (s.setPoll { s.poll with active := [], pass := none })

/-- CANPLAN (R141). -/
def execCanplan (p : Payload Unit) (s : State) : Host.Outcome State Fault Refusal :=
  runCommand .canplan (.canplan p) (withParameters p actCanplan) s

/-- CANSTBY's act (R136). -/
def actCanstby (_ : Unit) (s : State) : CommandResult :=
  match s.poll.standby with
  | none => .refuse s .already
  | some _ => .done (s.setPoll { s.poll with standby := none })

/-- CANSTBY (R136). -/
def execCanstby (p : Payload Unit) (s : State) : Host.Outcome State Fault Refusal :=
  runCommand .canstby (.canstby p) (withParameters p actCanstby) s

/-! ### The manual exchange -/

/-- XCHG's act (R143). -/
def actXchg (k : Nat) (s : State) : CommandResult :=
  match s.poll.manual with
  | .waiting _ => .refuse s .slotTaken
  | .inFlight _ => .refuse s .slotTaken
  | .empty =>
    if k = 0 ∨ s.demand.carCount < k then .refuse s .badParam
    else .done (s.setPoll { s.poll with manual := .waiting k })

/-- XCHG (R143). -/
def execXchg (p : Payload Nat) (s : State) : Host.Outcome State Fault Refusal :=
  runCommand .xchg (.xchg p) (withParameters p actXchg) s

/-- CANXCHG's act (R145). -/
def actCanxchg (_ : Unit) (s : State) : CommandResult :=
  match s.poll.manual with
  | .waiting _ => .done (s.setPoll { s.poll with manual := .empty })
  | .inFlight _ => .refuse s .tooLate
  | .empty => .refuse s .already

/-- CANXCHG (R145). -/
def execCanxchg (p : Payload Unit) (s : State) : Host.Outcome State Fault Refusal :=
  runCommand .canxchg (.canxchg p) (withParameters p actCanxchg) s

/-- RDXCHG's act (R147). -/
def actRdxchg (_ : Unit) (s : State) : CommandResult :=
  match s.poll.result with
  | .unread r => { state := s.setPoll { s.poll with result := .read r }, result := .done, payload := .manual r }
  | .read _ => .refuse s .noResult
  | .empty => .refuse s .noResult

/-- RDXCHG (R147). -/
def execRdxchg (p : Payload Unit) (s : State) : Host.Outcome State Fault Refusal :=
  runCommand .rdxchg (.rdxchg p) (withParameters p actRdxchg) s

/-! ### RESTORE -/

/-- The health a RESTORE gives a CUT OUT car (R155). -/
def CarHealth.restored : CarHealth where
  state := .recovering
  counter := 0
  recovery := 0

/-- RESTORE's act (R155). -/
def actRestore (k : Nat) (s : State) : CommandResult :=
  if k = 0 ∨ s.demand.carCount < k then .refuse s .badParam
  else if (s.healthOf k).state = .cutOut then
    { state := s.putHealth k .restored, result := .done, payload := .restored k .recovering 0 }
  else
    { state := s
      result := .already
      payload := .restored k (s.healthOf k).state (s.healthOf k).recovery }

/-- RESTORE (R155). -/
def execRestore (p : Payload Nat) (s : State) : Host.Outcome State Fault Refusal :=
  runCommand .restore (.restore p) (withParameters p actRestore) s

/-! ### Attention -/

/-- The answer of RDATT (R170). -/
def LinkPort.attentionReport (l : LinkPort) : AttentionReport where
  causeWord := l.causeWord
  cars := l.cars
  masks := l.masks
  taken := l.taken
  notTaken := l.notTaken
  dropped := l.dropped

/-- RDATT's act: the answer is formed, and then what it returned set is cleared (R170). -/
def actRdatt (_ : Unit) (s : State) : CommandResult :=
  { state := s.setLink s.link.clearCauses, result := .done, payload := .attention s.link.attentionReport }

/-- RDATT (R170). -/
def execRdatt (p : Payload Unit) (s : State) : Host.Outcome State Fault Refusal :=
  runCommand .rdatt (.rdatt p) (withParameters p actRdatt) s

/-- SETMASK's act (R171). -/
def actSetmask (w : Word) (s : State) : CommandResult :=
  if w.msb then .refuse s .badParam
  else { state := s.setLink { s.link with masks := w }, result := .done, payload := .masks w }

/-- SETMASK (R171). -/
def execSetmask (p : Payload Word) (s : State) : Host.Outcome State Fault Refusal :=
  runCommand .setmask (.setmask p) (withParameters p actSetmask) s

end Sys2Proof.Machine
end

