-- ==== Sys2Proof/Machine/PositionCommands.lean ====
section
/-! DEFINITION. The position commands SETCAL, SETPOS, SETFIX and RDPOS (R4, R15 to R17). -/

namespace Sys2Proof.Machine

/-- SETCAL's act (R4). -/
def actSetcal (calibration : Nat) (s : State) : CommandResult :=
  if calibration < 16 ∨ 4096 < calibration then .refuse s .badParam
  else
    .done ((s.setPosition { s.position with calibration := calibration, latch := none, candidate := none }).setLock
      .noFix)

/-- SETCAL (R4). -/
def execSetcal (p : Payload Nat) (s : State) : Host.Outcome State Fault Refusal :=
  runCommand .setcal (.setcal p) (withParameters p actSetcal) s

/-- SETPOS's act (R15). -/
def actSetpos (p : ChainageField) (s : State) : CommandResult :=
  .done ((s.setPosition { s.position with rp := p.toNat * 256, candidate := none, fixDistance := 0, latch := none }).setLock
    .doubt)

/-- SETPOS (R15). -/
def execSetpos (p : Payload ChainageField) (s : State) : Host.Outcome State Fault Refusal :=
  runCommand .setpos (.setpos p) (withParameters p actSetpos) s

/-- SETFIX's act (R14, R16). -/
def actSetfix (f : FixFields) (s : State) : CommandResult :=
  if f.window < 10 ∨ 5000 < f.window ∨ 65535 < f.intervalLimit then .refuse s .badParam
  else
    .done (s.setPosition { s.position with window := f.window, intervalLimit := f.intervalLimit }).checkInterval

/-- SETFIX (R16). -/
def execSetfix (p : Payload FixFields) (s : State) : Host.Outcome State Fault Refusal :=
  runCommand .setfix (.setfix p) (withParameters p actSetfix) s

/-- The answer of RDPOS (R17). -/
def State.positionReport (s : State) : PositionReport where
  rp := s.leadCm
  lock := s.position.lock
  speed := s.position.snapshot.speed
  candidateHeld := s.position.candidate.isSome
  candidateError := s.position.candidate.getD 0
  fixDistance := wholeCm s.position.fixDistance
  unmatched := s.position.unmatched
  markerOverruns := s.position.markerOverruns
  bad := s.position.bad

/-- RDPOS's act (R17). -/
def actRdpos (_ : Unit) (s : State) : CommandResult :=
  { state := s, result := .done, payload := .position s.positionReport }

/-- RDPOS (R17). -/
def execRdpos (p : Payload Unit) (s : State) : Host.Outcome State Fault Refusal :=
  runCommand .rdpos (.rdpos p) (withParameters p actRdpos) s

end Sys2Proof.Machine
end

