-- ==== Sys2Proof/Machine/Resets.lean ====
section
/-! DEFINITION. The resets SOFTWARE_RESET, PIN_RESET, POWER_ON and RESET_N_RELEASE (R18, R41, R72, R96, R117, R130, R132,
R149, R160, R172, R175, R183). -/

namespace Sys2Proof.Machine

/-- The Position Unit after a software reset (R18). -/
def PositionUnit.softReset (p : PositionUnit) : PositionUnit := { p with latch := none, candidate := none }

/-- The Cycle Timer after a software reset (R72). -/
def CycleTimer.softReset (t : CycleTimer) : CycleTimer := { t with running := false, cycleLength := none, overruns := 0 }

/-- The Demand Unit after a software reset (R96, R117). -/
def DemandUnit.softReset (d : DemandUnit) : DemandUnit := { d with cars := List.replicate carIndices CarOutput.clear }

/-- The Poll Engine after a software reset: any exchange in flight is aborted with no outcome (R130, R132, R149). -/
def PollEngine.softReset (p : PollEngine) : PollEngine :=
  { p with
    phase := .idle
    exchange := none
    active := []
    standby := none
    pass := none
    manual := .empty
    result := .empty }

/-- The Route Link Port after a software reset (R172). -/
def LinkPort.softReset (l : LinkPort) : LinkPort :=
  { l with phase := .idle, buffer := none, answer := none, causes := 0, cars := 0 }

/-- Mode Control after a software reset (R175). -/
def ModeControl.softReset (m : ModeControl) : ModeControl :=
  { m with mode := .config, holdTravelled := 0, resetStage := .none }

/-- The part after a software reset (R183). -/
def State.softReset (s : State) : State :=
  { s with
    position := s.position.softReset
    table := .empty
    timer := s.timer.softReset
    demand := s.demand.softReset
    poll := s.poll.softReset
    health := healthClear
    link := s.link.softReset
    mode := s.mode.softReset }

/-- SOFTWARE_RESET: carried out once the answer to RESET has been sent (R183). Where none is due, nothing happens (logs
3 and 14). -/
def execSoftwareReset (s : State) : Host.Outcome State Fault Refusal :=
  unlessHeld s (if s.mode.resetStage = .due then s.softReset else s)

/-- The power-on values of every block, with the straps sampled; a marker message in reception stays so (R18, R183; log
13). The queue is not the part's, and is kept. -/
def State.powerOnValues (s : State) (t : Straps) : State :=
  { State.reset with
    position := { PositionUnit.powerOn with reception := s.position.reception }
    straps := t
    resetHeld := s.resetHeld
    pending := s.pending }

/-- PIN_RESET: RESET_N goes low; it acts at once, and holds until the release (R183). -/
def execPinReset (t : Straps) (s : State) : Host.Outcome State Fault Refusal :=
  .next ((s.powerOnValues t).setResetHeld true)

/-- POWER_ON (R183). The level of the RESET_N pin is not the part's to change (log 12). -/
def execPowerOn (t : Straps) (s : State) : Host.Outcome State Fault Refusal := .next (s.powerOnValues t)

/-- RESET_N_RELEASE: inputs are taken again (R183). -/
def execResetNRelease (s : State) : Host.Outcome State Fault Refusal := .next (s.setResetHeld false)

end Sys2Proof.Machine
end

