-- ==== Sys2Proof/Machine/Settings.lean ====
section
/-! DEFINITION. The settings and reads of the Cycle Timer, the composition, the Demand Unit and the bus: SETCYC,
SETCOMP, SETTRAV, RDCOMP, SETLIM, RDCAR and SETBUS (R70, R87 to R90, R95, R115, R116, R131). -/

namespace Sys2Proof.Machine

/-! ### SETCYC -/

/-- SETCYC's act (R70). -/
def actSetcyc (f : CycleFields) (s : State) : CommandResult :=
  if f.period < 10 ∨ 40 < f.period ∨ (f.horizon ≠ 0 ∧ f.horizon < 100) ∨ 20000 < f.horizon then .refuse s .badParam
  else
    .done ((s.setTimer { s.timer with period := f.period }).setTable { s.table with horizonSetting := f.horizon })

/-- SETCYC (R70). -/
def execSetcyc (p : Payload CycleFields) (s : State) : Host.Outcome State Fault Refusal :=
  runCommand .setcyc (.setcyc p) (withParameters p actSetcyc) s

/-! ### SETCOMP -/

/-- The Poll Engine that SETCOMP leaves: plans emptied, a WAITING request discarded, an exchange in flight left to end
without effect (R88, R89). -/
def PollEngine.recomposed (p : PollEngine) : PollEngine :=
  { p with
    active := []
    standby := none
    manual := match p.manual with
      | .empty => .empty
      | .waiting _ => .empty
      | .inFlight k => .inFlight k
    exchange := p.exchange.map fun e => { e with voided := true } }

/-- What a SETCOMP that passes its checks does (R88, R89). -/
def State.compose (s : State) (c : Composition) : State :=
  ((s.setDemand { s.demand with composition := some c, cars := List.replicate carIndices CarOutput.clear }).setHealth
    healthClear).setPoll s.poll.recomposed

/-- SETCOMP's act (R87, R88). -/
def actSetcomp (payload : List Byte) (s : State) : CommandResult :=
  match parseComposition payload with
  | .error (reason, k) => { state := s, result := .badParam, payload := .compReason reason k }
  | .ok c => { state := s.compose c, result := .done, payload := .value c.cars.length }

/-- SETCOMP (R87, R88). -/
def execSetcomp (payload : List Byte) (s : State) : Host.Outcome State Fault Refusal :=
  runCommand .setcomp (.setcomp payload) (actSetcomp payload) s

/-! ### SETTRAV -/

/-- SETTRAV's act (R90). -/
def actSettrav (f : OrientationFields) (s : State) : CommandResult :=
  match f.travel, f.lead with
  | .named travel, .named lead =>
    .done ((s.setPosition { s.position with travel := travel, latch := none }).setDemand { s.demand with lead := lead })
  | .named _, .other => .refuse s .badParam
  | .other, _ => .refuse s .badParam

/-- SETTRAV (R90). -/
def execSettrav (p : Payload OrientationFields) (s : State) : Host.Outcome State Fault Refusal :=
  runCommand .settrav (.settrav p) (withParameters p actSettrav) s

/-! ### RDCOMP -/

/-- The cars of an RDCOMP answer (R95). -/
def DemandUnit.carReports (d : DemandUnit) : List CarReport :=
  match d.composition with
  | none => []
  | some c =>
    mapNumbered
      (fun k car => { index := k, address := car.address, offset := car.offset, effective := c.effective d.lead car.offset })
      1 c.cars

/-- The answer of RDCOMP (R95). -/
def State.compositionReport (s : State) : CompositionReport where
  travel := s.position.travel
  lead := s.demand.lead
  count := s.demand.carCount
  cars := s.demand.carReports
  length := (s.demand.composition.map Composition.length).getD 0
  reader := (s.demand.composition.map Composition.reader).getD 0
  effectiveReader := s.demand.readerOffset
  rearCar := s.demand.rearCar

/-- RDCOMP's act (R95). -/
def actRdcomp (_ : Unit) (s : State) : CommandResult :=
  { state := s, result := .done, payload := .composition s.compositionReport }

/-- RDCOMP (R95). -/
def execRdcomp (p : Payload Unit) (s : State) : Host.Outcome State Fault Refusal :=
  runCommand .rdcomp (.rdcomp p) (withParameters p actRdcomp) s

/-! ### SETLIM -/

/-- The parameters of SETLIM lie in their ranges (R115). -/
def limitsOk (f : LimitFields) : Bool :=
  decide (1 ≤ f.slew ∧ f.slew ≤ 200) && decide (f.gangway ≤ 800) && decide (f.doubtCap ≤ 800)
    && decide (f.vZero < f.vFull ∧ f.vFull ≤ 65535) && decide (100 ≤ f.previewStep ∧ f.previewStep ≤ 5000)

/-- The limit settings of a SETLIM (R115). -/
def limitsOf (f : LimitFields) : Limits where
  slew := f.slew
  gangway := f.gangway
  doubtCap := f.doubtCap
  band := { vZero := f.vZero, vFull := f.vFull }
  previewStep := f.previewStep

/-- SETLIM's act (R115). -/
def actSetlim (f : LimitFields) (s : State) : CommandResult :=
  if limitsOk f then .done (s.setDemand { s.demand with limits := limitsOf f }) else .refuse s .badParam

/-- SETLIM (R115). -/
def execSetlim (p : Payload LimitFields) (s : State) : Host.Outcome State Fault Refusal :=
  runCommand .setlim (.setlim p) (withParameters p actSetlim) s

/-! ### RDCAR -/

/-- The answer of RDCAR (R116). -/
def State.carReport (s : State) (k : Nat) : CarStateReport where
  inComposition := (s.demand.car? k).isSome
  address := ((s.demand.car? k).map Car.address).getD 0
  output := s.outputOf k
  health := s.healthOf k

/-- RDCAR's act (R116). -/
def actRdcar (k : Nat) (s : State) : CommandResult :=
  if k = 0 ∨ carIndices < k then .refuse s .badParam
  else { state := s, result := .done, payload := .car (s.carReport k) }

/-- RDCAR (R116). -/
def execRdcar (p : Payload Nat) (s : State) : Host.Outcome State Fault Refusal :=
  runCommand .rdcar (.rdcar p) (withParameters p actRdcar) s

/-! ### SETBUS -/

/-- A reply timeout that SETBUS sets (R131). -/
def timeoutOk (n : Nat) : Bool := decide (100 ≤ n ∧ n ≤ 800 ∧ n % 100 = 0)

/-- SETBUS's act (R131). -/
def actSetbus (n : Nat) (s : State) : CommandResult :=
  if timeoutOk n then
    { state := s.setPoll { s.poll with replyTimeout := n }, result := .done, payload := .bus n s.straps.trate }
  else if n = 0 then { state := s, result := .done, payload := .bus s.poll.replyTimeout s.straps.trate }
  else .refuse s .badParam

/-- SETBUS (R131). -/
def execSetbus (p : Payload Nat) (s : State) : Host.Outcome State Fault Refusal :=
  runCommand .setbus (.setbus p) (withParameters p actSetbus) s

end Sys2Proof.Machine
end

