-- ==== Sys2Proof/Machine/TableReads.lean ====
section
/-! DEFINITION. The reads of the Curve Table RDREC, RDSLOT, FINDAT and TSUM, and COVER (R62 to R66). -/

namespace Sys2Proof.Machine

/-! ### RDREC and RDSLOT -/

/-- The pending-change kind of a slot (R63). -/
def PendingChange.kind : PendingChange → PendingKind
  | .none => .none
  | .image _ => .image
  | .withdrawal => .withdrawal

/-- Which image a read of a slot returns: the live one, or the pending one of a STAGED slot (R62). -/
def Slot.returnedKind (x : Slot) : ImageReturned := if x.state = .staged then .pending else .live

/-- The image a read of a slot returns (R62). -/
def Slot.returnedImage (x : Slot) : Option Record :=
  match x.live with
  | some r => some r
  | none => x.pendingImage

/-- The fade level of a slot, 0 unless it is FADING (R26, R63). -/
def Slot.fadeLevel (x : Slot) : Nat := x.fade.getD 0

/-- The common items of a read (R63). -/
def Slot.common (x : Slot) (i : Nat) (r : Record) : SlotCommon where
  slot := i
  key := r.key
  state := x.state
  pending := x.pending.kind
  fadeLevel := x.fadeLevel
  overwritten := x.overwritten
  confirmed := x.confirmed
  image := x.returnedKind

/-- The FIELDS part of a read; for a LIMIT, e1, e2 and the hand field are 0 (R63). -/
def Slot.fieldsReport (x : Slot) (r : Record) : FieldsReport :=
  match r.body with
  | .curve c =>
    { kind := .curve, sectionTag := r.sectionTag, e0 := r.e0, e1 := c.e1, e2 := c.e2, e3 := r.e3, hand := .hand c.hand,
      angleOrCap := c.angle, band := c.band, nIn := c.entry.length, nOut := c.exit.length, marker := r.marker,
      publishedAt := x.publishedAt, activatedAt := x.activatedAt, confirmedAt := x.confirmedAt }
  | .limit cap =>
    { kind := .limit, sectionTag := r.sectionTag, e0 := r.e0, e1 := 0, e2 := 0, e3 := r.e3, hand := .zero,
      angleOrCap := cap, band := none, nIn := 0, nOut := 0, marker := r.marker, publishedAt := x.publishedAt,
      activatedAt := x.activatedAt, confirmedAt := x.confirmedAt }

/-- The entry profile of a record, none of a LIMIT (R63). -/
def Record.entryValues (r : Record) : List Nat :=
  match r.body with
  | .curve c => c.entry
  | .limit _ => []

/-- The exit profile of a record, none of a LIMIT (R63). -/
def Record.exitValues (r : Record) : List Nat :=
  match r.body with
  | .curve c => c.exit
  | .limit _ => []

/-- What a part adds to a read (R63). -/
def Slot.partReport (x : Slot) (r : Record) (part : ReadPart) : PartReport :=
  match part with
  | .fields => .fields (x.fieldsReport r)
  | .entry => .entry r.entryValues
  | .exit => .exit r.exitValues

/-- The table with the overwritten flag of a slot cleared (R30, R63). -/
def CurveTable.clearOverwritten (t : CurveTable) (i : Nat) : CurveTable :=
  t.putSlot i { t.slot i with overwritten := false }

/-- A read of a slot: the answer formed, and then the overwritten flag cleared; a FREE slot answers its number alone
(R62, R63). -/
def State.readSlot (s : State) (i : Nat) (part : ReadPart) : CommandResult :=
  match (s.table.slot i).returnedImage with
  | none => { state := s, result := .done, payload := .freeSlot i }
  | some r =>
    { state := s.setTable (s.table.clearOverwritten i)
      result := .done
      payload := .record ((s.table.slot i).common i r) ((s.table.slot i).partReport r part) }

/-- RDREC's act (R62). -/
def actRdrec (f : ReadKeyFields) (s : State) : CommandResult :=
  match f.part with
  | .other => .refuse s .badParam
  | .named part =>
    match s.table.slotOfKey f.key.toNat with
    | none => .refuse s .noSuchKey
    | some i => s.readSlot i part

/-- RDREC (R62, R63). -/
def execRdrec (p : Payload ReadKeyFields) (s : State) : Host.Outcome State Fault Refusal :=
  runCommand .rdrec (.rdrec p) (withParameters p actRdrec) s

/-- RDSLOT's act (R62). -/
def actRdslot (f : ReadSlotFields) (s : State) : CommandResult :=
  match f.part with
  | .other => .refuse s .badParam
  | .named part => if slotCount ≤ f.slot then .refuse s .badParam else s.readSlot f.slot part

/-- RDSLOT (R62, R63). -/
def execRdslot (p : Payload ReadSlotFields) (s : State) : Host.Outcome State Fault Refusal :=
  runCommand .rdslot (.rdslot p) (withParameters p actRdslot) s

/-! ### FINDAT -/

/-- The entry of a slot whose live image covers a place (R64). -/
def Slot.foundAt (x : Slot) (p : Int) : Option FoundRecord :=
  match x.live with
  | none => none
  | some r => if r.covers p then some { key := r.key, kind := r.kind, state := x.state } else none

/-- The greatest number of entries FINDAT lists (R64). -/
def maxFound : Nat := 8

/-- The answer of FINDAT (R64). -/
def State.findReport (s : State) (p : Int) : AnswerPayload :=
  .found ((s.table.slots.filterMap fun x => x.foundAt p).take maxFound)
    (decide (maxFound < (s.table.slots.filterMap fun x => x.foundAt p).length))
    (rawDemand s.table.slots s.demand.limits.band s.position.snapshot.speed p)

/-- FINDAT's act (R64). -/
def actFindat (p : ChainageField) (s : State) : CommandResult :=
  { state := s, result := .done, payload := s.findReport (p.toNat : Int) }

/-- FINDAT (R64). -/
def execFindat (p : Payload ChainageField) (s : State) : Host.Outcome State Fault Refusal :=
  runCommand .findat (.findat p) (withParameters p actFindat) s

/-! ### TSUM -/

/-- Whether a slot is ARMED or ACTIVE. -/
def Slot.isArmedOrActive (x : Slot) : Bool := decide (x.state = .armed) || decide (x.state = .active)

/-- The answer of TSUM (R65). -/
def State.tableReport (s : State) : TableReport where
  counts := slotCounts s.table.slots
  pendingImages := s.table.slots.countP fun x => x.isArmedOrActive && x.pendingImage.isSome
  pendingWithdrawals := s.table.slots.countP fun x => x.isArmedOrActive && decide (x.pending = .withdrawal)
  poolFree := s.table.poolFree
  assembly := s.table.assembly.map fun a => { intent := a.intent, key := a.key, written := a.values.length }
  coverage := s.table.coverage
  horizon := (s.table.reachNow s.position.travel).map fun r =>
    horizonDistance s.position.travel s.position.snapshot.lead r
  bitmap := s.table.bitmap

/-- The table with every entry of the changed-slot bitmap clear (R65). -/
def CurveTable.clearBitmap (t : CurveTable) : CurveTable := { t with bitmap := t.bitmap.map fun _ => false }

/-- TSUM's act (R65). -/
def actTsum (_ : Unit) (s : State) : CommandResult :=
  { state := s.setTable s.table.clearBitmap, result := .done, payload := .table s.tableReport }

/-- TSUM (R65). -/
def execTsum (p : Payload Unit) (s : State) : Host.Outcome State Fault Refusal :=
  runCommand .tsum (.tsum p) (withParameters p actTsum) s

/-! ### COVER -/

/-- A chainage strictly ahead of another in the travel sense (R66). -/
def strictlyAhead (travel : TravelSense) (lead p : Nat) : Bool :=
  match travel with
  | .ascending => decide (lead < p)
  | .descending => decide (p < lead)

/-- COVER's act (R66). -/
def actCover (p : ChainageField) (s : State) : CommandResult :=
  if strictlyAhead s.position.travel s.leadCm p.toNat then
    .done (s.setTable { s.table with coverage := some p.toNat })
  else .refuse s .badParam

/-- COVER (R66). -/
def execCover (p : Payload ChainageField) (s : State) : Host.Outcome State Fault Refusal :=
  runCommand .cover (.cover p) (withParameters p actCover) s

end Sys2Proof.Machine
end

