-- ==== Sys2Proof/Machine/Withdrawal.lean ====
section
/-! DEFINITION. Withdrawing records: WDRAW, WDSECT and CLRTAB (R58 to R61). -/

namespace Sys2Proof.Machine

/-- What a withdrawal finds for one slot (R58, cases 3 to 9). -/
inductive WithdrawFinding where
  | already
  | freed
  | inUse
  | markerClash (other : Nat)
  | overlapClash (other : Nat)
  | pending
  deriving DecidableEq, Repr

/-- A clash of the live image of a slot that holds a pending image with another slot's view (R58, cases 6 and 7). -/
def CurveTable.withdrawClash (t : CurveTable) (i : Nat) (x : Slot) : Option WithdrawFinding :=
  match x.pendingImage, x.live with
  | some _, some r =>
    match t.lowestOther (some i) r.sharesMarker with
    | some j => some (.markerClash j)
    | none => (t.lowestOther (some i) r.overlaps).map WithdrawFinding.overlapClash
  | some _, none => none
  | none, _ => none

/-- The finding for a non-FREE slot (R58). -/
def CurveTable.judgeWithdraw (t : CurveTable) (i : Nat) (x : Slot) (force : Bool) : WithdrawFinding :=
  if x.pending = .withdrawal ∨ x.state = .fading then .already
  else if x.state = .staged then .freed
  else if x.state = .active ∧ force = false then .inUse
  else (t.withdrawClash i x).getD .pending

/-- A slot that takes a pending withdrawal; a pending image it held is discarded, and its overwritten flag set (R30,
R59). -/
def Slot.withdraw (x : Slot) : Slot :=
  { x with pending := .withdrawal, overwritten := x.overwritten || x.pendingImage.isSome }

/-- The slot a finding leaves (R59). -/
def WithdrawFinding.apply (f : WithdrawFinding) (x : Slot) : Slot :=
  match f with
  | .freed => .freed
  | .pending => x.withdraw
  | .already => x
  | .inUse => x
  | .markerClash _ => x
  | .overlapClash _ => x

/-- The points a finding returns: those of the pending image it drops (R39). -/
def WithdrawFinding.returned (f : WithdrawFinding) (x : Slot) : Nat :=
  match f with
  | .freed => x.points
  | .pending => imagePoints x.pendingImage
  | .already => 0
  | .inUse => 0
  | .markerClash _ => 0
  | .overlapClash _ => 0

/-- The result and payload of a WDRAW for a slot (R58). -/
def WithdrawFinding.answer (f : WithdrawFinding) (i : Nat) : ResultCode × AnswerPayload :=
  match f with
  | .freed => (.done, .withdrawal i .freed)
  | .pending => (.done, .withdrawal i .pending)
  | .already => (.already, .slot i)
  | .inUse => (.inUse, .slot i)
  | .markerClash j => (.markerInUse, .slotClash i j)
  | .overlapClash j => (.overlap, .slotClash i j)

/-- A finding carried out on one slot of the table (R59). -/
def CurveTable.applyFinding (t : CurveTable) (i : Nat) (f : WithdrawFinding) : CurveTable :=
  { t.putSlot i (f.apply (t.slot i)) with poolFree := t.poolFree + f.returned (t.slot i) }

/-! ### WDRAW -/

/-- The finding of a WDRAW for the slot that carries its key (R58). -/
def CurveTable.findWithdraw (t : CurveTable) (i : Nat) (force : Nat) : WithdrawFinding :=
  t.judgeWithdraw i (t.slot i) (force = 1)

/-- WDRAW's act (R58, R59). -/
def actWdraw (f : WithdrawFields) (s : State) : CommandResult :=
  if 1 < f.force then .refuse s .badParam
  else
    match s.table.slotOfKey f.key.toNat with
    | none => .refuse s .noSuchKey
    | some i =>
      let found := s.table.findWithdraw i f.force
      { state := s.setTable (s.table.applyFinding i found), result := (found.answer i).1, payload := (found.answer i).2 }

/-- WDRAW (R58). -/
def execWdraw (p : Payload WithdrawFields) (s : State) : Host.Outcome State Fault Refusal :=
  runCommand .wdraw (.wdraw p) (withParameters p actWdraw) s

/-! ### WDSECT -/

/-- A section tag agrees with another in every bit of a mask (R60). -/
def tagAgrees (tag given mask : Nat) : Bool := tag &&& mask = given &&& mask

/-- What WDSECT does with one slot, as the command finds the table: none for a slot it does not select (R60). -/
def CurveTable.sectionFinding (t : CurveTable) (f : SectionFields) (i : Nat) (x : Slot) : Option WithdrawFinding :=
  match x.view with
  | none => none
  | some r => if tagAgrees r.sectionTag f.tag f.mask then some (t.judgeWithdraw i x (f.force = 1)) else none

/-- The findings of WDSECT, slot by slot (R60). -/
def CurveTable.sectionFindings (t : CurveTable) (f : SectionFields) : List (Option WithdrawFinding) :=
  mapFindings t f 0 t.slots
where
  /-- The findings of slots numbered from k on. -/
  mapFindings (t : CurveTable) (f : SectionFields) : Nat → List Slot → List (Option WithdrawFinding)
    | _, [] => []
    | k, x :: xs => t.sectionFinding f k x :: mapFindings t f (k + 1) xs

/-- The slot an optional finding leaves. -/
def applySection (x : Slot) (f : Option WithdrawFinding) : Slot :=
  match f with
  | none => x
  | some g => g.apply x

/-- The points an optional finding returns. -/
def returnedSection (x : Slot) (f : Option WithdrawFinding) : Nat :=
  match f with
  | none => 0
  | some g => g.returned x

/-- The findings carried out on every slot (R60). -/
def CurveTable.applySections (t : CurveTable) (fs : List (Option WithdrawFinding)) : CurveTable :=
  { t with
    slots := List.zipWith applySection t.slots fs
    poolFree := t.poolFree + (List.zipWith returnedSection t.slots fs).sum }

/-- A finding counted as withdrawn (R60). -/
def WithdrawFinding.isWithdrawn : WithdrawFinding → Bool
  | .freed => true
  | .pending => true
  | .already => false
  | .inUse => false
  | .markerClash _ => false
  | .overlapClash _ => false

/-- A finding refused for a clash (R60). -/
def WithdrawFinding.isClash : WithdrawFinding → Bool
  | .markerClash _ => true
  | .overlapClash _ => true
  | .freed => false
  | .pending => false
  | .already => false
  | .inUse => false

/-- The number of findings that meet a check. -/
def countFindings (fs : List (Option WithdrawFinding)) (check : WithdrawFinding → Bool) : Nat :=
  fs.countP fun f => f.any check

/-- The four counts of WDSECT (R60). -/
def sectionReport (fs : List (Option WithdrawFinding)) : AnswerPayload :=
  .sectionCounts (countFindings fs WithdrawFinding.isWithdrawn) (countFindings fs fun g => g = .inUse)
    (countFindings fs WithdrawFinding.isClash) (countFindings fs fun g => g = .already)

/-- WDSECT's act (R60). -/
def actWdsect (f : SectionFields) (s : State) : CommandResult :=
  if 4095 < f.tag ∨ 4095 < f.mask ∨ 1 < f.force then .refuse s .badParam
  else
    { state := s.setTable (s.table.applySections (s.table.sectionFindings f))
      result := .done
      payload := sectionReport (s.table.sectionFindings f) }

/-- WDSECT (R60). -/
def execWdsect (p : Payload SectionFields) (s : State) : Host.Outcome State Fault Refusal :=
  runCommand .wdsect (.wdsect p) (withParameters p actWdsect) s

/-! ### CLRTAB -/

/-- What CLRTAB does with a slot: none for a FREE one (R61). -/
def Slot.clearFinding (x : Slot) : Option WithdrawFinding :=
  if x.state = .free then none
  else if x.pending = .withdrawal ∨ x.state = .fading then some .already
  else if x.state = .staged then some .freed
  else some .pending

/-- The Curve Table that CLRTAB leaves (R61). -/
def CurveTable.cleared (t : CurveTable) : CurveTable :=
  { t.applySections (t.slots.map Slot.clearFinding) with assembly := none, coverage := none }

/-- The three counts of CLRTAB (R61). -/
def clearReport (fs : List (Option WithdrawFinding)) : AnswerPayload :=
  .cleared (countFindings fs fun g => g = .freed) (countFindings fs fun g => g = .pending)
    (countFindings fs fun g => g = .already)

/-- CLRTAB's act (R61). -/
def actClrtab (_ : Unit) (s : State) : CommandResult :=
  { state := s.setTable s.table.cleared
    result := .done
    payload := clearReport (s.table.slots.map Slot.clearFinding) }

/-- CLRTAB (R61). -/
def execClrtab (p : Payload Unit) (s : State) : Host.Outcome State Fault Refusal :=
  runCommand .clrtab (.clrtab p) (withParameters p actClrtab) s

end Sys2Proof.Machine
end

