-- ==== Sys2Proof/Machine/Dispatch.lean ====
section
/-! DEFINITION. One arm per row of the opcode table. -/

namespace Sys2Proof.Machine

/-- The effect of a command or event on everything but the queue. -/
def exec (i : Instr) (s : State) : Host.Outcome State Fault Refusal :=
  match i with
  | .start p => Sys2Proof.Machine.execStart p s
  | .run p => Sys2Proof.Machine.execRun p s
  | .stby p => Sys2Proof.Machine.execStby p s
  | .hold p => Sys2Proof.Machine.execHold p s
  | .stop p => Sys2Proof.Machine.execStop p s
  | .reset p => Sys2Proof.Machine.execReset p s
  | .rdstat p => Sys2Proof.Machine.execRdstat p s
  | .setcal p => Sys2Proof.Machine.execSetcal p s
  | .setpos p => Sys2Proof.Machine.execSetpos p s
  | .setfix p => Sys2Proof.Machine.execSetfix p s
  | .rdpos p => Sys2Proof.Machine.execRdpos p s
  | .openr p => Sys2Proof.Machine.execOpenr p s
  | .putp p => Sys2Proof.Machine.execPutp p s
  | .contp p => Sys2Proof.Machine.execContp p s
  | .closer p => Sys2Proof.Machine.execCloser p s
  | .abandr p => Sys2Proof.Machine.execAbandr p s
  | .wdraw p => Sys2Proof.Machine.execWdraw p s
  | .wdsect p => Sys2Proof.Machine.execWdsect p s
  | .clrtab p => Sys2Proof.Machine.execClrtab p s
  | .rdrec p => Sys2Proof.Machine.execRdrec p s
  | .rdslot p => Sys2Proof.Machine.execRdslot p s
  | .findat p => Sys2Proof.Machine.execFindat p s
  | .tsum p => Sys2Proof.Machine.execTsum p s
  | .cover p => Sys2Proof.Machine.execCover p s
  | .setcyc p => Sys2Proof.Machine.execSetcyc p s
  | .setcomp payload => Sys2Proof.Machine.execSetcomp payload s
  | .settrav p => Sys2Proof.Machine.execSettrav p s
  | .rdcomp p => Sys2Proof.Machine.execRdcomp p s
  | .setlim p => Sys2Proof.Machine.execSetlim p s
  | .rdcar p => Sys2Proof.Machine.execRdcar p s
  | .setbus p => Sys2Proof.Machine.execSetbus p s
  | .ldplan payload => Sys2Proof.Machine.execLdplan payload s
  | .canplan p => Sys2Proof.Machine.execCanplan p s
  | .canstby p => Sys2Proof.Machine.execCanstby p s
  | .xchg p => Sys2Proof.Machine.execXchg p s
  | .canxchg p => Sys2Proof.Machine.execCanxchg p s
  | .rdxchg p => Sys2Proof.Machine.execRdxchg p s
  | .restore p => Sys2Proof.Machine.execRestore p s
  | .rdatt p => Sys2Proof.Machine.execRdatt p s
  | .setmask p => Sys2Proof.Machine.execSetmask p s
  | .odometerPulse direction => Sys2Proof.Machine.execOdometerPulse direction s
  | .fixIntervalExpiry => Sys2Proof.Machine.execFixIntervalExpiry s
  | .holdExpiry => Sys2Proof.Machine.execHoldExpiry s
  | .markerStrobe => Sys2Proof.Machine.execMarkerStrobe s
  | .markerMessage byte stopOk => Sys2Proof.Machine.execMarkerMessage byte stopOk s
  | .markerMessageCutShort => Sys2Proof.Machine.execMarkerMessageCutShort s
  | .fence => Sys2Proof.Machine.execFence s
  | .planEntryServed => Sys2Proof.Machine.execPlanEntryServed s
  | .manualExchangeStart => Sys2Proof.Machine.execManualExchangeStart s
  | .frameSent => Sys2Proof.Machine.execFrameSent s
  | .replyReceived byte stopOk => Sys2Proof.Machine.execReplyReceived byte stopOk s
  | .replyCutShort => Sys2Proof.Machine.execReplyCutShort s
  | .replyTimeout => Sys2Proof.Machine.execReplyTimeout s
  | .settlingDone => Sys2Proof.Machine.execSettlingDone s
  | .frameClosed stopOk => Sys2Proof.Machine.execFrameClosed stopOk s
  | .frameAborted stopOk => Sys2Proof.Machine.execFrameAborted stopOk s
  | .answerSent => Sys2Proof.Machine.execAnswerSent s
  | .softwareReset => Sys2Proof.Machine.execSoftwareReset s
  | .pinReset straps => Sys2Proof.Machine.execPinReset straps s
  | .powerOn straps => Sys2Proof.Machine.execPowerOn straps s
  | .replyStartBit => Sys2Proof.Machine.execReplyStartBit s
  | .replyByteTaken byte stopOk => Sys2Proof.Machine.execReplyByteTaken byte stopOk s
  | .linkCharacter char stopOk => Sys2Proof.Machine.execLinkCharacter char stopOk s
  | .markerByte byte stopOk => Sys2Proof.Machine.execMarkerByte byte stopOk s
  | .resetNRelease => Sys2Proof.Machine.execResetNRelease s

end Sys2Proof.Machine
end

