-- ==== Sys2Proof/Safety.lean ====
section
/-! DEFINITION. The words the statements are made of: which command a row is, when the port takes it, what an answer and
a frame leave unchanged, the values after power-on, and the invariants that every step keeps. -/

namespace Sys2Proof

/-! ### Link command rows -/

/-- A payload shorter or longer than the command's parameters require. -/
def Payload.isWrong {α : Type} : Payload α → Bool
  | .exact _ => false
  | .wrongLength => true

/-- The row is a link command whose payload has another length than its parameters require (R43, R166). SETCOMP and
LDPLAN judge the length of their bytes themselves (R87, R135). -/
def Instr.wrongLength : Instr → Bool
  | .start p | .run p | .stby p | .stop p | .reset p | .rdstat p | .rdpos p | .closer p | .abandr p | .clrtab p
  | .tsum p | .rdcomp p | .canplan p | .canstby p | .canxchg p | .rdxchg p | .rdatt p => p.isWrong
  | .hold p | .setcal p | .rdcar p | .setbus p | .xchg p | .restore p => p.isWrong
  | .setpos p | .findat p | .cover p => p.isWrong
  | .putp p | .contp p => p.isWrong
  | .setfix p => p.isWrong
  | .openr p => p.isWrong
  | .wdraw p => p.isWrong
  | .wdsect p => p.isWrong
  | .rdrec p => p.isWrong
  | .rdslot p => p.isWrong
  | .setcyc p => p.isWrong
  | .settrav p => p.isWrong
  | .setlim p => p.isWrong
  | .setmask p => p.isWrong
  | .setcomp _ | .ldplan _ => false
  | .odometerPulse _ | .fixIntervalExpiry | .holdExpiry | .markerStrobe | .markerMessage _ _ | .markerMessageCutShort
  | .fence | .planEntryServed | .manualExchangeStart | .frameSent | .replyReceived _ _ | .replyCutShort
  | .replyTimeout | .settlingDone | .frameClosed _ | .frameAborted _ | .answerSent | .softwareReset | .pinReset _
  | .powerOn _ | .replyStartBit | .replyByteTaken _ _ | .linkCharacter _ _ | .markerByte _ _ | .resetNRelease => false

namespace Machine

/-- The port takes a command's row in: RESET_N is not held low, no reset is ahead, and the port is IDLE, or ACTING on a
frame of that command whose payload may carry the row's (R165, R166, R183; log 4). -/
def State.takes (s : State) (i : Instr) : Prop :=
  s.resetHeld = false ∧ s.mode.resetStage = .none
    ∧ (s.link.phase = .idle
      ∨ s.link.phase = .acting ∧ ∃ c b, i.code? = some c ∧ s.link.buffer = some b ∧ b.holds c i = true)

/-- The modes that the availability table marks for the commands of each of its rows (R176). -/
def availability : List (List CommandCode × List Mode) :=
  [([.start], [.config]),
    ([.run], [.standby, .running, .hold]),
    ([.stby], [.standby, .running, .hold]),
    ([.hold], [.running]),
    ([.stop], [.config, .standby, .hold]),
    ([.reset, .rdstat], [.config, .standby, .running, .hold]),
    ([.setcal], [.config, .standby]),
    ([.setpos], [.config, .standby, .hold]),
    ([.setfix, .rdpos], [.config, .standby, .running, .hold]),
    ([.openr, .putp, .contp, .closer, .abandr], [.standby, .running, .hold]),
    ([.wdraw, .wdsect, .cover], [.standby, .running, .hold]),
    ([.clrtab], [.standby, .hold])]
  ++ [([.rdrec, .rdslot, .findat, .tsum], [.config, .standby, .running, .hold]),
    ([.setcyc], [.config, .standby, .running, .hold]),
    ([.setcomp, .settrav], [.config]),
    ([.rdcomp, .rdcar], [.config, .standby, .running, .hold]),
    ([.setlim], [.config, .standby, .hold]),
    ([.setbus, .ldplan], [.config, .standby, .running, .hold]),
    ([.canplan, .canstby, .canxchg, .rdxchg], [.config, .standby, .running, .hold]),
    ([.xchg, .restore], [.standby, .running, .hold]),
    ([.rdatt, .setmask], [.config, .standby, .running, .hold])]

/-! ### What a row leaves unchanged -/

/-- The parts of State a row may change, but for the link side of the port, the straps, RESET_N and the queue. The
attention part is the causes, the CARS bitmap and the masks. -/
inductive Block where
  | position | table | timer | demand | poll | health | mode | attention
  deriving DecidableEq, Repr

/-- A part is the same in two states. -/
def Block.same (b : Block) (s t : State) : Prop :=
  match b with
  | .position => t.position = s.position
  | .table => t.table = s.table
  | .timer => t.timer = s.timer
  | .demand => t.demand = s.demand
  | .poll => t.poll = s.poll
  | .health => t.health = s.health
  | .mode => t.mode = s.mode
  | .attention => t.link.causes = s.link.causes ∧ t.link.cars = s.link.cars ∧ t.link.masks = s.link.masks

/-- Every part but those named is the same, and so are the straps, the RESET_N level and the queue. -/
def KeptBut (named : List Block) (s t : State) : Prop :=
  (∀ b : Block, b ∈ named ∨ b.same s t) ∧ t.straps = s.straps ∧ t.resetHeld = s.resetHeld ∧ t.pending = s.pending

/-- The link side of the port is the same: receiver, answer side and counts. -/
def LinkKept (s t : State) : Prop :=
  t.link.receiver = s.link.receiver ∧ t.link.phase = s.link.phase ∧ t.link.buffer = s.link.buffer
    ∧ t.link.answer = s.link.answer ∧ t.link.taken = s.link.taken ∧ t.link.notTaken = s.link.notTaken
    ∧ t.link.dropped = s.link.dropped

/-- A cause word with more causes set. -/
def withCauses (w : Word) : List Cause → Word
  | [] => w
  | c :: cs => withCauses (w ||| bitWord c.bit) cs

/-- Exactly the causes named are raised: each is set, and the other causes, the CARS bitmap and the masks are as they
were (R168). -/
def Raised (causes : List Cause) (s t : State) : Prop :=
  t.link.causes = withCauses s.link.causes causes ∧ t.link.cars = s.link.cars ∧ t.link.masks = s.link.masks

/-- The causes of a list whose condition holds. -/
def causesWhere (l : List (Bool × Cause)) : List Cause := (l.filter Prod.fst).map Prod.snd

/-- The port answers the frame of a command with a result and a payload: ANSWERING, the status of a Taken frame, the
frame still in the buffer, counted once, and the rest of its link side as it was (R164 to R167). -/
def Answered (s t : State) (c : CommandCode) (r : ResultCode) (p : AnswerPayload) : Prop :=
  t.link.phase = .answering
    ∧ t.link.answer = some { code := c.byte, status := .taken, result := r, payload := p }
    ∧ t.link.buffer.bind Buffered.code = some c
    ∧ t.link.taken = (if s.link.phase = .idle then min (s.link.taken + 1) 65535 else s.link.taken)
    ∧ t.link.receiver = s.link.receiver ∧ t.link.notTaken = s.link.notTaken ∧ t.link.dropped = s.link.dropped

/-! ### Finding slots -/

/-- Slot i, which holds x, is the lowest-numbered one that meets a condition. -/
def CurveTable.lowestAt (t : CurveTable) (meets : Nat → Slot → Prop) (i : Nat) (x : Slot) : Prop :=
  t.slots[i]? = some x ∧ meets i x ∧ ∀ (j : Nat) (y : Slot), j < i → t.slots[j]? = some y → ¬ meets j y

/-- No slot meets a condition. -/
def CurveTable.noSlot (t : CurveTable) (meets : Nat → Slot → Prop) : Prop :=
  ∀ (j : Nat) (y : Slot), t.slots[j]? = some y → ¬ meets j y

/-- The view of a slot carries a key (R33). -/
def viewHasKey (key : Nat) (_ : Nat) (x : Slot) : Prop := ∃ r, x.view = some r ∧ r.key = key

/-- The slot is not i, and its view carries the marker id of a record (R35). -/
def otherHasMarker (i : Option Nat) (r : Record) (j : Nat) (y : Slot) : Prop :=
  i ≠ some j ∧ ∃ q m n, y.view = some q ∧ r.marker = some m ∧ q.marker = some n ∧ m.id = n.id

/-- The slot is not i, and its view is a CURVE whose extent the body of a CURVE meets, or whose body its extent meets
(R36). -/
def otherOverlaps (i : Option Nat) (r : Record) (j : Nat) (y : Slot) : Prop :=
  i ≠ some j ∧ ∃ q c d, y.view = some q ∧ r.body = .curve c ∧ q.body = .curve d
    ∧ (meets c.e1 c.e2 q.e0 q.e3 = true ∨ meets r.e0 r.e3 d.e1 d.e2 = true)

/-- The farthest of some places in the travel sense: the greatest when ASCENDING, the least when DESCENDING; none where
there is no place (R83). -/
def isFarthest (travel : TravelSense) (place : Nat → Prop) (reach : Option Nat) : Prop :=
  (reach = none ↔ ∀ p, ¬ place p)
    ∧ ∀ r, reach = some r → place r ∧ ∀ p, place p → if travel = .ascending then p ≤ r else r ≤ p

/-- A place the reach is formed over: the far end of a record of the post-publication view, pending images included, or
the coverage position (R65, R83). -/
def CurveTable.reachPlace (t : CurveTable) (travel : TravelSense) (p : Nat) : Prop :=
  t.coverage = some p
    ∨ ∃ x ∈ t.slots, ∃ r, x.view = some r ∧ p = if travel = .ascending then r.e3 else r.e0

/-! ### The checks of CLOSER, as R50 lists them -/

/-- Every place of the value list is written (R51). -/
def Assembly.complete (a : Assembly) : Prop := a.total ≤ a.values.length

/-- A profile is absent, or runs from one end value to another with no value above 1024 (R24). -/
def profileFits (first last : Nat) (values : List Nat) : Prop :=
  values = [] ∨ values.head? = some first ∧ values.getLast? = some last ∧ ∀ v ∈ values, v ≤ 1024

/-- Both profiles meet R24 (R51). -/
def Assembly.profilesFit (a : Assembly) : Prop := profileFits 0 1024 a.entryProfile ∧ profileFits 1024 0 a.exitProfile

/-- The place, within the value list, of the first offence of a profile whose values stand there from place k on: the first
value above 1024, else a wrong first value, else a wrong last one (R51; log 15 for the order within one profile). -/
def offendsAt (k first last : Nat) (values : List Nat) (place : Nat) : Prop :=
  (∃ n v, values[n]? = some v ∧ 1024 < v ∧ (∀ m w, m < n → values[m]? = some w → w ≤ 1024) ∧ place = k + n)
    ∨ (∀ v ∈ values, v ≤ 1024)
      ∧ ((∃ v, values.head? = some v ∧ v ≠ first ∧ place = k)
        ∨ values.head? = some first ∧ ∃ v, values.getLast? = some v ∧ v ≠ last ∧ place = k + values.length - 1)

/-- The record lies wholly behind the rear car at RP (R53). -/
def State.behindRear (s : State) (r : Record) : Prop :=
  ∃ rear, s.rearPosition s.leadCm = some rear
    ∧ match s.position.travel with
      | .ascending => (r.e3 : Int) ≤ rear
      | .descending => rear < (r.e0 : Int)

/-! ### Where the cars stand at a fence (R73) -/

/-- A car of the composition stands within the extent, for a lead position. -/
def State.carIn (s : State) (lead : Nat) (r : Record) : Prop :=
  ∃ p ∈ s.carPositions lead, (r.e0 : Int) ≤ p ∧ p < (r.e3 : Int)

/-- No car stands within the extent, and it lies wholly behind the rear car. -/
def State.allPast (s : State) (lead : Nat) (r : Record) : Prop :=
  ¬ s.carIn lead r ∧ ∃ rear, s.rearPosition lead = some rear
    ∧ match s.position.travel with
      | .ascending => (r.e3 : Int) ≤ rear
      | .descending => rear < (r.e0 : Int)

/-! ### Payload bytes and the checks made on them (R87, R135, 10.5) -/

/-- The payload of a SETCOMP for a composition (10.5). -/
def Composition.bytes (c : Composition) : List Byte :=
  BitVec.ofNat 8 c.cars.length
    :: ((c.cars.flatMap fun car => BitVec.ofNat 8 car.address :: wordBytes (BitVec.ofNat 16 car.offset))
      ++ wordBytes (BitVec.ofNat 16 c.length) ++ wordBytes (BitVec.ofNat 16 c.reader))

/-- The numbers of a composition fit the fields of a SETCOMP payload. -/
def Composition.fitsPayload (c : Composition) : Prop :=
  c.cars.length ≤ 255 ∧ (∀ car ∈ c.cars, car.address ≤ 255 ∧ car.offset ≤ 65535) ∧ c.length ≤ 65535 ∧ c.reader ≤ 65535

/-- The payload of a LDPLAN for a list of entries (10.5). -/
def planBytes (plan : List PlanEntry) : List Byte :=
  BitVec.ofNat 8 plan.length :: plan.flatMap fun e => [BitVec.ofNat 8 e.car, BitVec.ofNat 8 e.span]

/-- The numbers of a plan fit the fields of a LDPLAN payload. -/
def planFitsPayload (plan : List PlanEntry) : Prop := plan.length ≤ 255 ∧ ∀ e ∈ plan, e.car ≤ 255 ∧ e.span ≤ 255

/-- k is the lowest number, counted from 1, that meets a condition. -/
def isLowest (meets : Nat → Prop) (k : Nat) : Prop := 1 ≤ k ∧ meets k ∧ ∀ j, 1 ≤ j → j < k → ¬ meets j

/-- Car k has an address of 0 or above 126 (R87, ADDRESS). -/
def Composition.badAddress (c : Composition) (k : Nat) : Prop :=
  ∃ car, c.cars[k - 1]? = some car ∧ (car.address = 0 ∨ 126 < car.address)

/-- Car k has the address of a car of lower index (R87, DUPLICATE). -/
def Composition.repeatsAddress (c : Composition) (k : Nat) : Prop :=
  ∃ car j other, c.cars[k - 1]? = some car ∧ 1 ≤ j ∧ j < k ∧ c.cars[j - 1]? = some other ∧ car.address = other.address

/-- Car k has an offset not greater than that of the car before it (R87, ORDER). -/
def Composition.outOfOrder (c : Composition) (k : Nat) : Prop :=
  ∃ car before, 2 ≤ k ∧ c.cars[k - 1]? = some car ∧ c.cars[k - 2]? = some before ∧ car.offset ≤ before.offset

/-- The train length is less than the offset of the last car, or above 60,000 (R87, TRAIN_LENGTH). -/
def Composition.badLength (c : Composition) : Prop :=
  (∃ car, c.cars.getLast? = some car ∧ c.length < car.offset) ∨ 60000 < c.length

/-- Entry k names car 0 or a car above the count (R135, CAR). -/
def badCar (plan : List PlanEntry) (count k : Nat) : Prop := ∃ e, plan[k - 1]? = some e ∧ (e.car = 0 ∨ count < e.car)

/-- Entry k has a span code above 3 (R135, SPAN). -/
def badSpan (plan : List PlanEntry) (k : Nat) : Prop := ∃ e, plan[k - 1]? = some e ∧ 3 < e.span

/-! ### The outcome of an exchange (R124 to R126) -/

/-- The number in the condition field of a reply: a byte in a status reply, a word in a detail reply (10.5). -/
def Exchange.conditionField (e : Exchange) : Nat :=
  match e.kind with
  | .setpoint => (byteAt e.received 4).toNat
  | .inquiry => (wordAt e.received 4).toNat

/-- The reply of an exchange is BAD (R124). -/
def Exchange.replyBad (e : Exchange) : Prop :=
  e.received.length < e.kind.replyLength ∨ e.framingError = true
    ∨ checkOf (e.received.take (e.received.length - 2)) ≠ wordAt e.received (e.received.length - 2)
    ∨ (byteAt e.received 0).toNat ≠ e.address ∨ byteAt e.received 1 ≠ e.kind.replyKind
    ∨ (e.conditionField ≠ 1 ∧ e.conditionField ≠ 2 ∧ e.conditionField ≠ 3)

/-- The outcome of a reply and what it carries: BAD and nothing; or READY and SLOW GOOD, FAULT FAULT, with the actual
angle, the condition and, of a detail reply, the eight words (R120, R124, R125). -/
def Exchange.judgedAs (e : Exchange) (o : ExchangeOutcome) (reply : Option Reply) : Prop :=
  (e.replyBad → o = .bad ∧ reply = none)
    ∧ (¬ e.replyBad → ∃ r, reply = some r
      ∧ r.actual = (wordAt e.received 2).toInt
      ∧ (e.conditionField = 1 → r.condition = .ready ∧ o = .good)
      ∧ (e.conditionField = 2 → r.condition = .slow ∧ o = .good)
      ∧ (e.conditionField = 3 → r.condition = .fault ∧ o = .fault)
      ∧ (e.kind = .setpoint → r.words = [])
      ∧ (e.kind = .inquiry → r.words = [wordAt e.received 2, wordAt e.received 4, wordAt e.received 6,
          wordAt e.received 8, wordAt e.received 10, wordAt e.received 12, wordAt e.received 14, wordAt e.received 16]))

/-- A flag after a GOOD reply to a setpoint frame: cleared with its mark where the mark is set (R113). -/
def flagAfterGood (f : LatchedFlag) : LatchedFlag :=
  if f.delivered then { latched := false, delivered := false } else f

/-- The outcome of an exchange taken: the bus SETTLING with nothing in flight, the slot of a manual exchange EMPTY, a
pass whose last entry this was ended; and, unless a SETCOMP came since the frame's start, health counted, the reply
stored, and a manual result written (R89, R113, R126, R139, R144, R146, R158). -/
def OutcomeTaken (s t : State) (e : Exchange) (o : ExchangeOutcome) (reply : Option Reply) : Prop :=
  LinkKept s t ∧ KeptBut [.demand, .poll, .health, .attention] s t
    ∧ t.poll = { s.poll with
        phase := .settling, exchange := none, manual := t.poll.manual, pass := t.poll.pass, result := t.poll.result }
    ∧ (e.origin = .manual → t.poll.manual = .empty ∧ t.poll.pass = s.poll.pass)
    ∧ (e.origin = .plan → t.poll.manual = s.poll.manual
      ∧ (∀ k, s.poll.pass = some k → s.poll.active.length < k → t.poll.pass = none)
      ∧ ((∀ k, s.poll.pass = some k → k ≤ s.poll.active.length) → t.poll.pass = s.poll.pass))
    ∧ (e.voided = true → t.demand = s.demand ∧ t.health = s.health ∧ t.poll.result = s.poll.result ∧ Raised [] s t)
    ∧ (e.voided = false →
      (∀ h, s.health[e.car - 1]? = some h → t.health = s.health.set (e.car - 1) (h.count o)
        ∧ t.link.cars = (if (h.count o).state = h.state then s.link.cars else s.link.cars ||| 1#16 <<< (e.car - 1)))
      ∧ t.link.causes = (if e.origin = .manual then s.link.causes ||| bitWord Cause.manualDone.bit else s.link.causes)
      ∧ t.link.masks = s.link.masks
      ∧ t.demand = { s.demand with cars := t.demand.cars }
      ∧ (∀ j, j ≠ e.car - 1 → t.demand.cars[j]? = s.demand.cars[j]?)
      ∧ (∀ c, s.demand.cars[e.car - 1]? = some c →
        (reply = none → t.demand.cars[e.car - 1]? = some c)
        ∧ ∀ r, reply = some r →
          (e.kind = .setpoint ∧ o = .good → t.demand.cars[e.car - 1]? = some
            { c with actual := r.actual, condition := some r.condition, changed := flagAfterGood c.changed,
                     fixed := flagAfterGood c.fixed })
          ∧ (¬ (e.kind = .setpoint ∧ o = .good) → t.demand.cars[e.car - 1]? = some
            { c with actual := r.actual, condition := some r.condition }))
      ∧ (e.origin = .plan → t.poll.result = s.poll.result)
      ∧ (e.origin = .manual → ∃ lost, t.poll.result = .unread
          { car := e.car, outcome := o, words := (reply.map Reply.words).getD (List.replicate 8 0), lost := lost }
        ∧ (lost = true ↔ ∃ r, s.poll.result = .unread r)))

/-! ### The values after power-on (R18, R41, R72, R96, R117, R132, R149, R160, R172, R175) -/

/-- Every block of t holds its power-on value; a marker message in reception is the one given (log 13), and the straps
are the ones sampled. -/
def State.atPowerOn (reception : Option MarkerReception) (straps : Straps) (t : State) : Prop :=
  t.position =
      { rp := 0, calibration := 256, travel := .ascending, cycleDistance := 0, firstFence := false, fixDistance := 0,
        latch := none, candidate := none, lock := .noFix, window := 300, intervalLimit := 0,
        snapshot := { lead := 0, speed := 0, lock := .noFix }, unmatched := 0, markerOverruns := 0, bad := 0,
        reception := reception }
    ∧ t.table =
      { slots := List.replicate 64
          { live := none, pending := .none, status := .armed, fade := none, overwritten := false, confirmed := false,
            publishedAt := none, activatedAt := none, confirmedAt := none }
        poolFree := 512, assembly := none, coverage := none, bitmap := List.replicate 64 false, horizonSetting := 0,
        horizonShort := false, reach := none, changedExtents := [] }
    ∧ t.timer = { period := 20, running := false, cycleLength := none, overruns := 0, fencePulses := 0 }
    ∧ t.demand =
      { composition := none, lead := .endA,
        limits :=
          { slew := 25, gangway := 300, doubtCap := 200, band := { vZero := 1500, vFull := 3500 }, previewStep := 1000 }
        cars := List.replicate 16
          { lastSent := 0, changed := { latched := false, delivered := false },
            fixed := { latched := false, delivered := false }, actual := 0, condition := none } }
    ∧ t.poll =
      { phase := .idle, replyTimeout := 300, exchange := none, frame := none, active := [], standby := none,
        pass := none, manual := .empty, result := .empty }
    ∧ t.health = List.replicate 16 { state := .served, counter := 0, recovery := 0 }
    ∧ t.link =
      { receiver := { phase := .hunt, content := [], count := 0, stopBad := false }, phase := .idle, buffer := none,
        answer := none, taken := 0, notTaken := 0, dropped := 0, causes := 0, cars := 0, masks := 0 }
    ∧ t.mode = { mode := .config, holdDistance := 0, holdTravelled := 0, resetStage := .none }
    ∧ t.straps = straps

/-! ### The codes of 10.5 -/

/-- The command codes (10.5). -/
def commandCodes : List (CommandCode × Byte) :=
  [(.start, 0x01), (.run, 0x02), (.stby, 0x03), (.hold, 0x04), (.stop, 0x05), (.reset, 0x06), (.rdstat, 0x07),
    (.setcal, 0x10), (.setpos, 0x11), (.setfix, 0x12), (.rdpos, 0x13), (.openr, 0x20), (.putp, 0x21)]
  ++ [(.contp, 0x22), (.closer, 0x23), (.abandr, 0x24), (.wdraw, 0x25), (.wdsect, 0x26), (.clrtab, 0x27),
    (.rdrec, 0x28), (.rdslot, 0x29), (.findat, 0x2A), (.tsum, 0x2B), (.cover, 0x2C), (.setcyc, 0x30), (.setcomp, 0x40)]
  ++ [(.settrav, 0x41), (.rdcomp, 0x42), (.setlim, 0x43), (.rdcar, 0x44), (.setbus, 0x50), (.ldplan, 0x51),
    (.canplan, 0x52), (.canstby, 0x53), (.xchg, 0x54), (.canxchg, 0x55), (.rdxchg, 0x56), (.restore, 0x60),
    (.rdatt, 0x70), (.setmask, 0x71)]

/-- The result codes (10.5). -/
def resultCodes : List (ResultCode × Byte) :=
  [(.done, 0x00), (.replaced, 0x01), (.already, 0x02), (.wrongMode, 0x10), (.badParam, 0x11), (.unknownCommand, 0x12),
    (.notTaken, 0x13), (.noSuchKey, 0x20)]
  ++ [(.keyInUse, 0x21), (.markerInUse, 0x22), (.overlap, 0x23), (.behind, 0x24), (.tableFull, 0x25), (.poolFull, 0x26),
    (.assemblyOpen, 0x27), (.noAssembly, 0x28), (.incomplete, 0x29)]
  ++ [(.badProfile, 0x2A), (.inUse, 0x2B), (.fading, 0x2C), (.withdrawn, 0x2D), (.slotTaken, 0x30), (.tooLate, 0x31),
    (.noResult, 0x32), (.noComposition, 0x40)]

/-! ### Invariants -/

/-- The pool's free count and the points held make 512, over 64 slots (R19, R37). -/
def State.poolSound (s : State) : Prop :=
  s.table.slots.length = 64 ∧ s.table.poolFree + heldPoints s.table.slots = 512

/-- What a slot never holds (R26, R27): a pending withdrawal without a live image, a fading mark without a live image or
with a pending change, a fade level outside 1 to 16, or two images of different keys. -/
def Slot.sound (x : Slot) : Prop :=
  (x.pending = .withdrawal → x.live.isSome)
    ∧ (∀ n, x.fade = some n → x.live.isSome ∧ x.pending = .none ∧ 1 ≤ n ∧ n ≤ 16)
    ∧ ∀ r q, x.live = some r → x.pending = .image q → r.key = q.key

/-- Two records may stand in the table together: other keys, other marker ids, and no body of one meets the extent of
the other (R34 to R36). -/
def Record.compatible (r q : Record) : Prop :=
  r.key ≠ q.key
    ∧ (∀ m n, r.marker = some m → q.marker = some n → m.id ≠ n.id)
    ∧ ∀ c d, r.body = .curve c → q.body = .curve d → meets c.e1 c.e2 q.e0 q.e3 = false

/-- The laws of keys, markers and overlap, in the post-publication view and among the live images (R34 to R36). -/
def State.viewSound (s : State) : Prop :=
  (∀ x ∈ s.table.slots, x.sound)
    ∧ (∀ (i j : Nat) (x y : Slot) (r q : Record), i ≠ j → s.table.slots[i]? = some x → s.table.slots[j]? = some y →
        x.view = some r → y.view = some q → r.compatible q)
    ∧ ∀ (i j : Nat) (x y : Slot) (r q : Record), i ≠ j → s.table.slots[i]? = some x → s.table.slots[j]? = some y →
        x.live = some r → y.live = some q → r.compatible q

/-- The counter of a car agrees with its health state (R150). -/
def CarHealth.agrees (h : CarHealth) : Prop :=
  h.recovery ≤ 63
    ∧ match h.state with
      | .served => h.counter ≤ 95
      | .limited => 64 ≤ h.counter ∧ h.counter ≤ 255
      | .cutOut => h.counter = 255
      | .recovering => h.counter = 0

/-- The Health Unit holds 16 indices that agree (R150). -/
def State.healthSound (s : State) : Prop := s.health.length = 16 ∧ ∀ h ∈ s.health, h.agrees

/-- The Position Unit stays in its ranges (R1), and so do the two hold distances (R175; the top of the one travelled, log
21); a candidate is held in DOUBT alone (R12, R14); in LOCKED the fix interval limit has not been passed (R14); and in
HOLD the hold distance has not been passed (R181). -/
def State.positionSound (s : State) : Prop :=
  s.position.rp ≤ topPosition
    ∧ (16 ≤ s.position.calibration ∧ s.position.calibration ≤ 4096)
    ∧ s.position.cycleDistance.natAbs ≤ topPosition
    ∧ s.position.fixDistance ≤ topPosition
    ∧ (10 ≤ s.position.window ∧ s.position.window ≤ 5000)
    ∧ s.position.intervalLimit ≤ 65535
    ∧ (s.position.snapshot.lead ≤ maxChainage ∧ s.position.snapshot.speed ≤ 65535)
    ∧ (s.position.unmatched ≤ 65535 ∧ s.position.markerOverruns ≤ 65535 ∧ s.position.bad ≤ 65535)
    ∧ (s.position.candidate.isSome → s.position.lock = .doubt)
    ∧ (s.position.lock = .locked → s.position.intervalLimit ≠ 0 →
        s.position.fixDistance / 256 ≤ s.position.intervalLimit * 100)
    ∧ s.mode.holdDistance ≤ 5000 ∧ s.mode.holdTravelled ≤ topPosition
    ∧ (s.mode.mode = .hold → s.mode.holdDistance ≠ 0 → s.mode.holdTravelled / 256 ≤ s.mode.holdDistance * 100)

/-- In CONFIG the table is empty, the timer stopped, and no pass or WAITING request stands (R27, R68, R142, R182); in
the other modes a composition is held and the timer runs (R68, R73, R177). -/
def State.modeSound (s : State) : Prop :=
  (s.mode.mode = .config →
      (∀ x ∈ s.table.slots, x = Slot.freed) ∧ s.table.poolFree = 512 ∧ s.table.assembly = none ∧ s.table.coverage = none
        ∧ s.timer.running = false ∧ s.timer.cycleLength = none ∧ s.poll.pass = none
        ∧ ∀ k, s.poll.manual ≠ .waiting k)
    ∧ (s.mode.mode ≠ .config →
      s.demand.composition.isSome ∧ s.timer.running = true
        ∧ ∃ n, s.timer.cycleLength = some n ∧ 10 ≤ n ∧ n ≤ 40)
    ∧ 10 ≤ s.timer.period ∧ s.timer.period ≤ 40

/-- A lean of magnitude at most 800 (Quantities, R106). -/
def leanOk (v : Int) : Prop := -800 ≤ v ∧ v ≤ 800

/-- The values of a frame: setpoint and preview values. -/
def TiltFrame.values : TiltFrame → List Int
  | .setpoint _ _ values => values
  | .inquiry _ => []

/-- Every last sent setpoint, and every value of the frame last put on the bus, has magnitude at most 800 (R97,
R106). -/
def State.leanSound (s : State) : Prop :=
  s.demand.cars.length = 16 ∧ (∀ c ∈ s.demand.cars, leanOk c.lastSent) ∧ ∀ f, s.poll.frame = some f → ∀ v ∈ f.values, leanOk v

/-- An exchange is in flight in SENDING, AWAITING and RECEIVING and in no other phase (R119); it stands for the manual
slot where that is IN_FLIGHT, and only there (R133, R144); its reply is not complete (R123); a pass that has served its
last entry still has that entry's exchange in flight (R139). -/
def State.busSound (s : State) : Prop :=
  (s.poll.exchange.isSome ↔ s.poll.phase = .sending ∨ s.poll.phase = .awaiting ∨ s.poll.phase = .receiving)
    ∧ (∀ e, s.poll.exchange = some e → e.received.length < e.kind.replyLength
        ∧ (e.origin = .plan → e.kind = .setpoint)
        ∧ (e.origin = .manual → e.kind = .inquiry ∧ s.poll.manual = .inFlight e.car))
    ∧ (∀ k, s.poll.manual = .inFlight k → ∃ e, s.poll.exchange = some e ∧ e.origin = .manual ∧ e.car = k)
    ∧ (∀ k, s.poll.pass = some k → 1 ≤ k ∧ k ≤ s.poll.active.length + 1
        ∧ (k = s.poll.active.length + 1 → ∃ e, s.poll.exchange = some e ∧ e.origin = .plan))

/-- A plan holds at most 24 entries, each for a car of a count of cars, with a span code of 0 to 3 (R133, R134). -/
def planFits (cars : Nat) (plan : List PlanEntry) : Prop :=
  plan.length ≤ 24 ∧ ∀ e ∈ plan, 1 ≤ e.car ∧ e.car ≤ cars ∧ e.span ≤ 3

/-- The conditions a composition always meets (R86). -/
def Composition.sound (c : Composition) : Prop :=
  1 ≤ c.cars.length ∧ c.cars.length ≤ 16
    ∧ (∀ car ∈ c.cars, 1 ≤ car.address ∧ car.address ≤ 126)
    ∧ c.cars.Pairwise (fun a b => a.address ≠ b.address)
    ∧ c.cars.Pairwise (fun a b => a.offset < b.offset)
    ∧ (∀ car ∈ c.cars, car.offset ≤ c.length) ∧ c.length ≤ 60000 ∧ c.reader ≤ c.length

/-- The limit settings lie in their ranges (R97). -/
def Limits.sound (l : Limits) : Prop :=
  (1 ≤ l.slew ∧ l.slew ≤ 200) ∧ l.gangway ≤ 800 ∧ l.doubtCap ≤ 800
    ∧ (l.band.vZero < l.band.vFull ∧ l.band.vFull ≤ 65535) ∧ 100 ≤ l.previewStep ∧ l.previewStep ≤ 5000

/-- The composition, the limit settings, the reply timeout and both plans are as the part always holds them (R86, R97,
R119, R134). -/
def State.settingsSound (s : State) : Prop :=
  (∀ c, s.demand.composition = some c → c.sound)
    ∧ s.demand.limits.sound
    ∧ (100 ≤ s.poll.replyTimeout ∧ s.poll.replyTimeout ≤ 800 ∧ s.poll.replyTimeout % 100 = 0)
    ∧ planFits s.demand.carCount s.poll.active
    ∧ ∀ plan, s.poll.standby = some plan → planFits s.demand.carCount plan

/-- A declared count of profile values: 0, or 2 to 16 (R24, R44). -/
def profileCountFits (n : Nat) : Prop := n = 0 ∨ 2 ≤ n ∧ n ≤ 16

/-- A speed band as a record carries it (R23). -/
def Band.sound (b : Band) : Prop := b.vZero < b.vFull ∧ b.vFull ≤ 65535

/-- A record's marker (R25). -/
def Marker.sound (m : Marker) : Prop := 1 ≤ m.id ∧ m.id ≤ 16777215 ∧ m.position ≤ 4294967295

/-- The conditions a record in a slot always meets (R21, R23 to R25). -/
def Record.sound (r : Record) : Prop :=
  (1 ≤ r.key ∧ r.key ≤ 65535) ∧ r.sectionTag ≤ 4095 ∧ r.e0 < r.e3 ∧ r.e3 ≤ 4294967295
    ∧ (∀ m, r.marker = some m → m.sound)
    ∧ (∀ cap, r.body = .limit cap → cap ≤ 800)
    ∧ ∀ c, r.body = .curve c → r.e0 ≤ c.e1 ∧ c.e1 ≤ c.e2 ∧ c.e2 ≤ r.e3 ∧ c.angle ≤ 800
      ∧ (∀ b, c.band = some b → b.sound)
      ∧ profileCountFits c.entry.length ∧ profileCountFits c.exit.length
      ∧ profileFits 0 1024 c.entry ∧ profileFits 1024 0 c.exit

/-- The conditions an open assembly meets (R44 to R47). -/
def Assembly.sound (a : Assembly) : Prop :=
  (1 ≤ a.key ∧ a.key ≤ 65535) ∧ a.sectionTag ≤ 4095 ∧ a.e0 < a.e3 ∧ a.e3 ≤ 4294967295
    ∧ (∀ m, a.marker = some m → m.sound)
    ∧ (∀ cap, a.body = .limit cap → cap ≤ 800)
    ∧ (∀ c, a.body = .curve c → a.e0 ≤ c.e1 ∧ c.e1 ≤ c.e2 ∧ c.e2 ≤ a.e3 ∧ c.angle ≤ 800
      ∧ (∀ b, c.band = some b → b.sound) ∧ profileCountFits c.nIn ∧ profileCountFits c.nOut)
    ∧ a.writePosition ≤ a.values.length ∧ a.values.length ≤ a.total ∧ ∀ v ∈ a.values, v ≤ 65535

/-- Every record of the table, live or pending, and the open assembly are sound (R21, R23 to R25, R44). -/
def State.recordsSound (s : State) : Prop :=
  (∀ x ∈ s.table.slots, (∀ r, x.live = some r → r.sound) ∧ ∀ r, x.pending = .image r → r.sound)
    ∧ ∀ a, s.table.assembly = some a → a.sound

/-- The port's answer side (R165): IDLE holds nothing; ACTING holds a frame of a known command and no answer;
ANSWERING holds a frame and its answer. A RESET's answer goes out in ANSWERING, and its reset is due in IDLE (R166, R183;
the stages are the model's, log 14). Of the frame in reception the first 64 bytes are kept (R162); the cause word
holds no bit for CARS and none in bit 15, and the masks none in bit 15 (R171, R173). -/
def State.portSound (s : State) : Prop :=
  (match s.link.phase with
    | .idle => s.link.buffer = none ∧ s.link.answer = none
    | .acting => (∃ c, s.link.buffer.bind Buffered.code = some c) ∧ s.link.answer = none
    | .answering => s.link.buffer.isSome ∧ s.link.answer.isSome)
    ∧ (match s.mode.resetStage with
      | .none => True
      | .answering => s.link.phase = .answering
      | .due => s.link.phase = .idle)
    ∧ s.link.receiver.content.length = min s.link.receiver.count 64
    ∧ (s.link.receiver.phase = .hunt → s.link.receiver.count = 0)
    ∧ (s.link.causes.getLsbD 8 = false ∧ s.link.causes.getLsbD 15 = false ∧ s.link.masks.getLsbD 15 = false)
    ∧ s.link.taken ≤ 65535 ∧ s.link.notTaken ≤ 65535 ∧ s.link.dropped ≤ 65535

end Machine

end Sys2Proof
end

