-- ==== Sys2Proof/Certificates/Slice0/Obligations.lean ====
section
/-! DEFINITION. The statements for the provers. -/

open Sys2Proof Sys2Proof.Machine

/-! ## Steps, resets and the port -/

/-- A step takes the command or event at the front of the queue and is exec of it on the state with the queue's rest
(the model's queue, log 1). -/
def Obligations.StepTakesTheFrontCommand : Prop :=
  ∀ (s : State) (c : Instr) (rest : List Instr), s.pending = c :: rest → step s = exec c (s.setPending rest)

/-- No row stops the part: exec of every row answers a next state, and so does every step; with nothing waiting the part
idles (the model's choice, log 1). -/
def Obligations.NothingStopsThePart : Prop :=
  (∀ (i : Instr) (s : State), ∃ t, exec i s = .next t)
  ∧ (∀ s : State, ∃ t, step s = .next t)
  ∧ ∀ s : State, s.pending = [] → step s = .next s

/-- What POWER_ON, PIN_RESET and SOFTWARE_RESET set and keep, block by block, and what RESET_N_RELEASE changes (the
value tables of R18, R41, R72, R96, R117, R132, R149, R160, R172 and R175). These are the model's: the queue (log 1), the
straps low in State.reset (log 11), POWER_ON keeping the level of RESET_N (log 12), a marker message in reception through
a reset (log 13), the stage of a RESET, none after each reset and due before SOFTWARE_RESET (log 14), the status ARMED of
an empty slot (log 17), and the values of `reach` and `changedExtents` (log 18), `fencePulses` (log 19) and `frame` (log
20). -/
def Obligations.ResetsSetTheirValues : Prop :=
  State.reset.atPowerOn none { laddr := 0, lrate := 0, trate := false }
  ∧ (∀ (s : State) (straps : Straps), ∃ t, exec (.powerOn straps) s = .next t
      ∧ t.atPowerOn s.position.reception straps ∧ t.resetHeld = s.resetHeld ∧ t.pending = s.pending)
  ∧ (∀ (s : State) (straps : Straps), ∃ t, exec (.pinReset straps) s = .next t
      ∧ t.atPowerOn s.position.reception straps ∧ t.resetHeld = true ∧ t.pending = s.pending)
  ∧ (∀ s : State, exec .resetNRelease s = .next (s.setResetHeld false))
  ∧ ∀ s : State, s.resetHeld = false → s.mode.resetStage = .due → ∃ t, exec .softwareReset s = .next t
      ∧ t.position = { s.position with latch := none, candidate := none }
      ∧ t.table = State.reset.table
      ∧ t.timer = { s.timer with running := false, cycleLength := none, overruns := 0 }
      ∧ t.demand = { s.demand with cars := State.reset.demand.cars }
      ∧ t.poll = { State.reset.poll with replyTimeout := s.poll.replyTimeout, frame := s.poll.frame }
      ∧ t.health = State.reset.health
      ∧ t.link = { s.link with phase := .idle, buffer := none, answer := none, causes := 0, cars := 0 }
      ∧ t.mode = { s.mode with mode := .config, holdTravelled := 0, resetStage := .none }
      ∧ t.straps = s.straps ∧ t.resetHeld = false ∧ t.pending = s.pending

/-- While RESET_N is held low, every row but a reset and the release leaves the part as it is (R183). -/
def Obligations.HeldResetTakesNothing : Prop :=
  ∀ (i : Instr) (s : State), s.resetHeld = true → (∀ straps, i ≠ .pinReset straps ∧ i ≠ .powerOn straps) →
    i ≠ .resetNRelease → exec i s = .next s

/-- A link command's row that finds the port busy is dropped: FRAME_DROPPED, the dropped count, and nothing else (R165).
Between RESET and its reset the port is busy (R183; the stages, log 14). The row stands for its frame, and is a hand-over
only of a frame that may carry it (log 4). -/
def Obligations.BusyPortDropsCommands : Prop :=
  ∀ (i : Instr) (s : State) (c : CommandCode), i.code? = some c → s.resetHeld = false → ¬ s.takes i →
    ∃ t, exec i s = .next t ∧ KeptBut [.attention] s t ∧ Raised [.frameDropped] s t
      ∧ t.link.dropped = min (s.link.dropped + 1) 65535
      ∧ t.link.receiver = s.link.receiver ∧ t.link.phase = s.link.phase ∧ t.link.buffer = s.link.buffer
      ∧ t.link.answer = s.link.answer ∧ t.link.taken = s.link.taken ∧ t.link.notTaken = s.link.notTaken

/-- The availability table, and the refusal of a command in a mode not marked for it, whatever its payload (R176). -/
def Obligations.UnavailableCommandsAreRefused : Prop :=
  (∀ (c : CommandCode) (m : Mode), c.available m = availability.any fun row => row.1.contains c && row.2.contains m)
  ∧ ∀ (i : Instr) (s : State) (c : CommandCode), i.code? = some c → s.takes i → c.available s.mode.mode = false →
      ∃ t, exec i s = .next t ∧ Answered s t c .wrongMode .empty ∧ KeptBut [] s t

/-- A payload of another length than the command's parameters require is refused BAD_PARAM and changes nothing (R43 for
the record commands; for the other commands, and for the place of this check, log 5). -/
def Obligations.WrongLengthIsBadParam : Prop :=
  ∀ (i : Instr) (s : State) (c : CommandCode), i.code? = some c → i.wrongLength = true → s.takes i →
    c.available s.mode.mode = true →
      ∃ t, exec i s = .next t ∧ Answered s t c .badParam .empty ∧ KeptBut [] s t

/-! ## Invariants -/

/-- Every step keeps the pool's sum (R37, R39, R42). -/
def Obligations.PoolIsConserved : Prop := ∀ s t : State, s.poolSound → step s = .next t → t.poolSound

/-- Every step keeps the laws of keys, markers and overlap, and the shape of the slots (R26, R27, R34 to R36). -/
def Obligations.ViewLawsHold : Prop := ∀ s t : State, s.viewSound → step s = .next t → t.viewSound

/-- Every step keeps every record and the open assembly sound (R21, R23 to R25, R44). -/
def Obligations.RecordsStaySound : Prop := ∀ s t : State, s.recordsSound → step s = .next t → t.recordsSound

/-- Every step keeps the agreement of counter and health state (R150). -/
def Obligations.HealthStaysInAgreement : Prop := ∀ s t : State, s.healthSound → step s = .next t → t.healthSound

/-- Every step keeps the Position Unit, its counts and its snapshot in their ranges, and the hold distances in theirs, the
candidate in DOUBT, and the two distances within what would have expired (R1, R12, R14, R175, R181; the top of the hold
distance travelled, log 21). -/
def Obligations.PositionStaysSound : Prop := ∀ s t : State, s.positionSound → step s = .next t → t.positionSound

/-- Every step keeps what the modes promise: CONFIG with an empty table and a stopped timer, the others with a
composition and a running one (R27, R68, R73, R182). -/
def Obligations.ModesKeepTheirPromise : Prop := ∀ s t : State, s.modeSound → step s = .next t → t.modeSound

/-- Every step keeps every lean sent within 800 (R106, the magnitude law). -/
def Obligations.LeanStaysWithinItsBound : Prop := ∀ s t : State, s.leanSound → step s = .next t → t.leanSound

/-- Every step keeps the exchange in flight, the bus phase, the manual slot and the pass in step with each other (R119,
R133, R139, R144). `modeSound` rules out a pass in CONFIG, which no run reaches. -/
def Obligations.BusStaysInStep : Prop := ∀ s t : State, s.modeSound → s.busSound → step s = .next t → t.busSound

/-- Every step keeps the composition, the limit settings, the reply timeout and the plans sound (R86, R97, R119,
R134). -/
def Obligations.SettingsStaySound : Prop := ∀ s t : State, s.settingsSound → step s = .next t → t.settingsSound

/-- Every step keeps the port's answer side, its receiver and its words sound, and the stage of a RESET in step with the
answer side (R162, R165, R172, R173, R183; the stages, log 14). -/
def Obligations.PortStaysSound : Prop := ∀ s t : State, s.portSound → step s = .next t → t.portSound

/-- The state after power-on meets every invariant above. -/
def Obligations.ResetMeetsTheInvariants : Prop :=
  State.reset.poolSound ∧ State.reset.viewSound ∧ State.reset.recordsSound ∧ State.reset.healthSound
    ∧ State.reset.positionSound ∧ State.reset.modeSound ∧ State.reset.leanSound ∧ State.reset.busSound
    ∧ State.reset.settingsSound ∧ State.reset.portSound

/-! ## Mode commands -/

/-- START (R177): NO_COMPOSITION without a composition; with one, STANDBY, the timer running a cycle of the period in
force, the first-fence mark set and the cycle distance 0. -/
def Obligations.StartBeginsCycling : Prop :=
  ∀ s : State, s.takes (.start (.exact ())) → s.mode.mode = .config →
    (s.demand.composition = none → ∃ t, exec (.start (.exact ())) s = .next t
      ∧ Answered s t .start .noComposition .empty ∧ KeptBut [] s t)
    ∧ ∀ c, s.demand.composition = some c → ∃ t, exec (.start (.exact ())) s = .next t
      ∧ Answered s t .start .done .empty ∧ KeptBut [.mode, .timer, .position] s t
      ∧ t.mode = { s.mode with mode := .standby }
      ∧ t.timer = { s.timer with running := true, cycleLength := some s.timer.period }
      ∧ t.position = { s.position with firstFence := true, cycleDistance := 0 }

/-- RUN and STBY (R178, R179): ALREADY in the mode asked for; else the mode changes, and nothing else. -/
def Obligations.RunAndStandbyChangeTheMode : Prop :=
  (∀ s : State, s.takes (.run (.exact ())) → s.mode.mode ≠ .config →
    (s.mode.mode = .running → ∃ t, exec (.run (.exact ())) s = .next t ∧ Answered s t .run .already .empty ∧ KeptBut [] s t)
    ∧ (s.mode.mode ≠ .running → ∃ t, exec (.run (.exact ())) s = .next t ∧ Answered s t .run .done .empty
        ∧ KeptBut [.mode] s t ∧ t.mode = { s.mode with mode := .running }))
  ∧ ∀ s : State, s.takes (.stby (.exact ())) → s.mode.mode ≠ .config →
    (s.mode.mode = .standby → ∃ t, exec (.stby (.exact ())) s = .next t ∧ Answered s t .stby .already .empty
        ∧ KeptBut [] s t)
    ∧ (s.mode.mode ≠ .standby → ∃ t, exec (.stby (.exact ())) s = .next t ∧ Answered s t .stby .done .empty
        ∧ KeptBut [.mode] s t ∧ t.mode = { s.mode with mode := .standby })

/-- HOLD (R180): above 5,000 m BAD_PARAM; else the hold distance replaced, the travelled distance 0, the mode HOLD, and
the distance answered. -/
def Obligations.HoldSetsItsDistance : Prop :=
  ∀ (s : State) (d : Nat), s.takes (.hold (.exact d)) → s.mode.mode = .running →
    (5000 < d → ∃ t, exec (.hold (.exact d)) s = .next t ∧ Answered s t .hold .badParam .empty ∧ KeptBut [] s t)
    ∧ (d ≤ 5000 → ∃ t, exec (.hold (.exact d)) s = .next t ∧ Answered s t .hold .done (.value d)
        ∧ KeptBut [.mode] s t ∧ t.mode = { s.mode with mode := .hold, holdDistance := d, holdTravelled := 0 })

/-- STOP (R142, R182): ALREADY in CONFIG; in STANDBY and HOLD the mode is CONFIG, the timer stopped, the pass ended, a
WAITING request discarded, and the table emptied but for the horizon setting and the changed-slot bitmap (and what the
last fence formed, log 18). -/
def Obligations.StopReturnsToConfig : Prop :=
  ∀ s : State, s.takes (.stop (.exact ())) →
    (s.mode.mode = .config → ∃ t, exec (.stop (.exact ())) s = .next t ∧ Answered s t .stop .already .empty
        ∧ KeptBut [] s t)
    ∧ (s.mode.mode = .standby ∨ s.mode.mode = .hold → ∃ t, exec (.stop (.exact ())) s = .next t
        ∧ Answered s t .stop .done .empty ∧ KeptBut [.mode, .timer, .poll, .table] s t
        ∧ t.mode = { s.mode with mode := .config }
        ∧ t.timer = { s.timer with running := false, cycleLength := none }
        ∧ t.poll = { s.poll with pass := none, manual := t.poll.manual }
        ∧ (∀ k, s.poll.manual = .waiting k → t.poll.manual = .empty)
        ∧ ((∀ k, s.poll.manual ≠ .waiting k) → t.poll.manual = s.poll.manual)
        ∧ t.table = { s.table with
            slots := List.replicate 64 Slot.freed, poolFree := 512, assembly := none, coverage := none,
            horizonShort := false })

/-- RESET is answered DONE and the software reset waits for the answer; when the closing flag has been sent the port is
IDLE and empty, and the software reset is due (R165, R166, R183; the stages are the model's, log 14). What it sets is in
`ResetsSetTheirValues`, and until then frames are dropped, as `BusyPortDropsCommands` and `FramesAreJudged` say. That
ANSWER_SENT with no answer going out, and SOFTWARE_RESET with none due, change nothing is the model's choice (log 3). -/
def Obligations.ResetWaitsForItsAnswer : Prop :=
  (∀ s : State, s.takes (.reset (.exact ())) → ∃ t, exec (.reset (.exact ())) s = .next t ∧ Answered s t .reset .done .empty
    ∧ KeptBut [.mode] s t ∧ t.mode = { s.mode with resetStage := .answering })
  ∧ (∀ s : State, s.resetHeld = false → s.link.phase = .answering → ∃ t, exec .answerSent s = .next t
    ∧ KeptBut [.mode] s t ∧ t.link = { s.link with phase := .idle, buffer := none, answer := none }
    ∧ t.mode = { s.mode with resetStage := if s.mode.resetStage = .none then .none else .due })
  ∧ (∀ s : State, s.resetHeld = false → s.link.phase ≠ .answering → exec .answerSent s = .next s)
  ∧ ∀ s : State, s.resetHeld = false → s.mode.resetStage ≠ .due → exec .softwareReset s = .next s

/-- RDPOS, RDSTAT, RDCOMP and RDCAR answer what the part holds and change nothing; RDCAR refuses index 0 and indices
above 16 (R17, R95, R116, R148, R184). -/
def Obligations.ReadsReportAndChangeNothing : Prop :=
  (∀ s : State, s.takes (.rdpos (.exact ())) → ∃ t, exec (.rdpos (.exact ())) s = .next t ∧ KeptBut [] s t
    ∧ Answered s t .rdpos .done (.position
      { rp := s.position.rp / 256, lock := s.position.lock, speed := s.position.snapshot.speed,
        candidateHeld := s.position.candidate.isSome, candidateError := s.position.candidate.getD 0,
        fixDistance := s.position.fixDistance / 256, unmatched := s.position.unmatched,
        markerOverruns := s.position.markerOverruns, bad := s.position.bad }))
  ∧ (∀ s : State, s.takes (.rdstat (.exact ())) → ∃ t, exec (.rdstat (.exact ())) s = .next t ∧ KeptBut [] s t
    ∧ Answered s t .rdstat .done (.status
      { mode := s.mode.mode, lock := s.position.lock, counts := slotCounts s.table.slots,
        timerRunning := s.timer.running, period := s.timer.period,
        plan :=
          { activeCount := s.poll.active.length, standbyReady := s.poll.standby.isSome,
            standbyCount := (s.poll.standby.getD []).length, pass := s.poll.pass, manual := s.poll.manual,
            result := s.poll.result.standing, inFlight := s.poll.exchange.map fun e => (e.origin, e.car),
            overruns := s.timer.overruns }
        holdDistance := s.mode.holdDistance,
        holdLeft :=
          if s.mode.mode = .hold ∧ s.mode.holdDistance ≠ 0 then
            ((s.mode.holdDistance * 100 : Nat) : Int) - ((s.mode.holdTravelled / 256 : Nat) : Int)
          else 0 }))
  ∧ (∀ s : State, s.takes (.rdcomp (.exact ())) → ∃ t r, exec (.rdcomp (.exact ())) s = .next t ∧ KeptBut [] s t
    ∧ Answered s t .rdcomp .done (.composition r)
    ∧ r.travel = s.position.travel ∧ r.lead = s.demand.lead
    ∧ (s.demand.composition = none → r.count = 0 ∧ r.cars = [] ∧ r.length = 0 ∧ r.reader = 0 ∧ r.effectiveReader = 0
        ∧ r.rearCar = 0)
    ∧ ∀ c, s.demand.composition = some c → r.count = c.cars.length ∧ r.cars.length = c.cars.length
        ∧ (∀ (k : Nat) (car : Car), c.cars[k]? = some car → r.cars[k]? = some
            { index := k + 1, address := car.address, offset := car.offset,
              effective := if s.demand.lead = .endA then car.offset else c.length - car.offset })
        ∧ r.length = c.length ∧ r.reader = c.reader
        ∧ r.effectiveReader = (if s.demand.lead = .endA then c.reader else c.length - c.reader)
        ∧ r.rearCar = (if s.demand.lead = .endA then c.cars.length else 1))
  ∧ ∀ (s : State) (k : Nat), s.takes (.rdcar (.exact k)) →
    (k = 0 ∨ 16 < k → ∃ t, exec (.rdcar (.exact k)) s = .next t ∧ Answered s t .rdcar .badParam .empty ∧ KeptBut [] s t)
    ∧ ∀ (o : CarOutput) (h : CarHealth), 1 ≤ k → k ≤ 16 → s.demand.cars[k - 1]? = some o → s.health[k - 1]? = some h →
        ∃ t r, exec (.rdcar (.exact k)) s = .next t ∧ KeptBut [] s t ∧ Answered s t .rdcar .done (.car r)
          ∧ r.output = o ∧ r.health = h
          ∧ (∀ c car, s.demand.composition = some c → c.cars[k - 1]? = some car →
              r.inComposition = true ∧ r.address = car.address)
          ∧ ((∀ c, s.demand.composition = some c → c.cars.length < k) → r.inComposition = false ∧ r.address = 0)

/-! ## Position commands, odometer and markers -/

/-- SETCAL (R4): 16 to 4096 replaces the calibration, empties latch and candidate, and throws the lock to NO_FIX, with
LOCK_CHANGED where it was another; anything else is BAD_PARAM. SETPOS (R15): any chainage becomes RP with a fraction of
0, the lock is DOUBT, with LOCK_CHANGED where it was another, candidate and latch are cleared and the fix distance is
0. -/
def Obligations.SetcalAndSetposMoveTheLock : Prop :=
  (∀ (s : State) (n : Nat), s.takes (.setcal (.exact n)) → s.mode.mode = .config ∨ s.mode.mode = .standby →
    (n < 16 ∨ 4096 < n → ∃ t, exec (.setcal (.exact n)) s = .next t ∧ Answered s t .setcal .badParam .empty
      ∧ KeptBut [] s t)
    ∧ (16 ≤ n → n ≤ 4096 → ∃ t, exec (.setcal (.exact n)) s = .next t ∧ Answered s t .setcal .done .empty
      ∧ KeptBut [.position, .attention] s t
      ∧ t.position = { s.position with calibration := n, lock := .noFix, latch := none, candidate := none }
      ∧ Raised (if s.position.lock = .noFix then [] else [.lockChanged]) s t))
  ∧ ∀ (s : State) (p : ChainageField), s.takes (.setpos (.exact p)) → s.mode.mode ≠ .running →
    ∃ t, exec (.setpos (.exact p)) s = .next t ∧ Answered s t .setpos .done .empty
      ∧ KeptBut [.position, .attention] s t
      ∧ t.position = { s.position with
          rp := p.toNat * 256, lock := .doubt, candidate := none, fixDistance := 0, latch := none }
      ∧ Raised (if s.position.lock = .doubt then [] else [.lockChanged]) s t

/-- SETFIX (R16): out of range BAD_PARAM; else both settings are replaced, and a LOCKED unit whose fix distance exceeds
the new limit goes to DOUBT at once, with no candidate and LOCK_CHANGED. -/
def Obligations.SetfixReplacesWindowAndLimit : Prop :=
  ∀ (s : State) (w m : Nat), s.takes (.setfix (.exact { window := w, intervalLimit := m })) →
    (w < 10 ∨ 5000 < w ∨ 65535 < m → ∃ t, exec (.setfix (.exact { window := w, intervalLimit := m })) s = .next t
      ∧ Answered s t .setfix .badParam .empty ∧ KeptBut [] s t)
    ∧ (10 ≤ w → w ≤ 5000 → m ≤ 65535 →
      (s.position.lock = .locked ∧ m ≠ 0 ∧ m * 100 < s.position.fixDistance / 256 →
        ∃ t, exec (.setfix (.exact { window := w, intervalLimit := m })) s = .next t
          ∧ Answered s t .setfix .done .empty ∧ KeptBut [.position, .attention] s t
          ∧ t.position = { s.position with window := w, intervalLimit := m, lock := .doubt, candidate := none }
          ∧ Raised [.lockChanged] s t)
      ∧ (¬ (s.position.lock = .locked ∧ m ≠ 0 ∧ m * 100 < s.position.fixDistance / 256) →
        ∃ t, exec (.setfix (.exact { window := w, intervalLimit := m })) s = .next t
          ∧ Answered s t .setfix .done .empty ∧ KeptBut [.position] s t
          ∧ t.position = { s.position with window := w, intervalLimit := m }))

/-- An odometer pulse (R2, R3, R14, R175, R181): RP moves by the calibration, held in its range; cycle, fix and hold
distances move and saturate; then a passed fix interval limit puts a LOCKED unit in DOUBT, and a passed hold distance
puts the part in STANDBY. -/
def Obligations.PulseMovesTheTrain : Prop :=
  ∀ (s : State) (d : Direction), s.resetHeld = false →
    ∀ (rp cal fix travelled : Nat) (passed expired : Bool),
      cal = s.position.calibration →
      rp = (max 0 (min ((s.position.rp : Int)
        + (if d = .forward ↔ s.position.travel = .ascending then (cal : Int) else -(cal : Int)))
        topPosition)).toNat →
      fix = min (s.position.fixDistance + cal) topPosition →
      travelled = (if s.mode.mode = .hold then min (s.mode.holdTravelled + cal) topPosition
        else s.mode.holdTravelled) →
      passed = decide (s.position.lock = .locked ∧ s.position.intervalLimit ≠ 0
        ∧ s.position.intervalLimit * 100 < fix / 256) →
      expired = decide (s.mode.mode = .hold ∧ s.mode.holdDistance ≠ 0 ∧ s.mode.holdDistance * 100 < travelled / 256) →
      ∃ t, exec (.odometerPulse d) s = .next t ∧ LinkKept s t ∧ KeptBut [.position, .mode, .attention] s t
        ∧ t.position = { s.position with
            rp := rp
            cycleDistance := max (-topPosition) (min (s.position.cycleDistance
              + (if d = .forward then (cal : Int) else -(cal : Int))) topPosition)
            fixDistance := fix
            lock := if passed then .doubt else s.position.lock
            candidate := if passed then none else s.position.candidate }
        ∧ t.mode = { s.mode with
            holdTravelled := travelled, mode := if expired then .standby else s.mode.mode }
        ∧ Raised (causesWhere [(passed, .lockChanged), (expired, .modeChanged)]) s t

/-- FIX_INTERVAL_EXPIRY and HOLD_EXPIRY act when their distance has been passed and change nothing before (R14, R181;
that a row whose event does not occur changes nothing is the model's, log 3). -/
def Obligations.ExpiriesActWhenPassed : Prop :=
  (∀ s : State, s.resetHeld = false →
    s.position.lock = .locked ∧ s.position.intervalLimit ≠ 0
      ∧ s.position.intervalLimit * 100 < s.position.fixDistance / 256 →
    ∃ t, exec .fixIntervalExpiry s = .next t ∧ LinkKept s t ∧ KeptBut [.position, .attention] s t
      ∧ t.position = { s.position with lock := .doubt, candidate := none } ∧ Raised [.lockChanged] s t)
  ∧ (∀ s : State, s.resetHeld = false →
    ¬ (s.position.lock = .locked ∧ s.position.intervalLimit ≠ 0
      ∧ s.position.intervalLimit * 100 < s.position.fixDistance / 256) → exec .fixIntervalExpiry s = .next s)
  ∧ (∀ s : State, s.resetHeld = false →
    s.mode.mode = .hold ∧ s.mode.holdDistance ≠ 0 ∧ s.mode.holdDistance * 100 < s.mode.holdTravelled / 256 →
    ∃ t, exec .holdExpiry s = .next t ∧ LinkKept s t ∧ KeptBut [.mode, .attention] s t
      ∧ t.mode = { s.mode with mode := .standby } ∧ Raised [.modeChanged] s t)
  ∧ ∀ s : State, s.resetHeld = false →
    ¬ (s.mode.mode = .hold ∧ s.mode.holdDistance ≠ 0 ∧ s.mode.holdDistance * 100 < s.mode.holdTravelled / 256) →
    exec .holdExpiry s = .next s

/-- MARKER_STROBE: the latch takes the antenna position, from the whole-cm part of RP and the effective reader offset,
unclamped; a full latch is overwritten, counted and MARKER_OVERRUN raised (R8). Then the bytes of a marker message before
its sixth, and a message cut short: a byte that is not 0xA5 begins nothing; 0xA5 begins a message; a further byte is
added with its stop bit's mark; a message cut short is discarded, counted, and empties the latch (R9, R174). That the
cut-short row changes nothing with no message in reception is the model's choice (log 3). -/
def Obligations.StrobesLatchAndMarkerBytesGather : Prop :=
  (∀ (s : State) (reader : Nat), s.resetHeld = false →
    (s.demand.composition = none → reader = 0) →
    (∀ c, s.demand.composition = some c →
      reader = if s.demand.lead = .endA then c.reader else c.length - c.reader) →
    ∃ t, exec .markerStrobe s = .next t ∧ LinkKept s t ∧ KeptBut [.position, .attention] s t
      ∧ t.position = { s.position with
          latch := some (if s.position.travel = .ascending then ((s.position.rp / 256 : Nat) : Int) - reader
            else ((s.position.rp / 256 : Nat) : Int) + reader)
          markerOverruns :=
            if s.position.latch.isSome then min (s.position.markerOverruns + 1) 65535 else s.position.markerOverruns }
      ∧ Raised (if s.position.latch.isSome then [.markerOverrun] else []) s t)
  ∧ (∀ (s : State) (b : Byte) (ok : Bool), s.resetHeld = false → s.position.reception = none → b ≠ 0xA5#8 →
    exec (.markerByte b ok) s = .next s)
  ∧ (∀ (s : State) (ok : Bool), s.resetHeld = false → s.position.reception = none →
    ∃ t, exec (.markerByte 0xA5#8 ok) s = .next t ∧ LinkKept s t ∧ KeptBut [.position] s t
      ∧ t.position = { s.position with reception := some { bytes := [0xA5#8], stopBad := !ok } })
  ∧ (∀ (s : State) (m : MarkerReception) (b : Byte) (ok : Bool), s.resetHeld = false →
    s.position.reception = some m → m.bytes.length < 5 →
    ∃ t, exec (.markerByte b ok) s = .next t ∧ LinkKept s t ∧ KeptBut [.position] s t
      ∧ t.position = { s.position with reception := some { bytes := m.bytes ++ [b], stopBad := m.stopBad || !ok } })
  ∧ (∀ (s : State) (m : MarkerReception), s.resetHeld = false → s.position.reception = some m →
    ∃ t, exec .markerMessageCutShort s = .next t ∧ LinkKept s t ∧ KeptBut [.position] s t
      ∧ t.position = { s.position with reception := none, latch := none, bad := min (s.position.bad + 1) 65535 })
  ∧ ∀ s : State, s.resetHeld = false → s.position.reception = none → exec .markerMessageCutShort s = .next s

/-- The sixth byte completes a marker message, which is discarded, unmatched, applied or refused (R9, R10, R12, R13,
R31, R111). The row MARKER_MESSAGE carries that byte, as MARKER_BYTE does (log 10). -/
def Obligations.MarkerMessageIsJudged : Prop :=
  ∀ (s : State) (m : MarkerReception) (b : Byte) (ok : Bool) (i : Instr) (bytes : List Byte) (id : Nat),
    s.resetHeld = false → s.position.reception = some m → m.bytes.length = 5 →
    i = .markerMessage b ok ∨ i = .markerByte b ok →
    bytes = m.bytes ++ [b] →
    id = (byteAt bytes 1).toNat + 256 * (byteAt bytes 2).toNat + 65536 * (byteAt bytes 3).toNat →
    -- a failed check
    (m.stopBad = true ∨ ok = false ∨ checkOf (bytes.take 4) ≠ wordAt bytes 4 → ∃ t, exec i s = .next t ∧ LinkKept s t
      ∧ KeptBut [.position] s t
      ∧ t.position = { s.position with reception := none, latch := none, bad := min (s.position.bad + 1) 65535 })
    ∧ (m.stopBad = false → ok = true → checkOf (bytes.take 4) = wordAt bytes 4 →
      -- no latched strobe
      (s.position.latch = none → ∃ t, exec i s = .next t ∧ LinkKept s t ∧ KeptBut [.position] s t
        ∧ t.position = { s.position with reception := none, bad := min (s.position.bad + 1) 65535 })
      ∧ ∀ antenna, s.position.latch = some antenna →
        -- no live image carries the id
        (s.table.noSlot (fun _ x => ∃ r k, x.live = some r ∧ r.marker = some k ∧ k.id = id) →
          ∃ t, exec i s = .next t ∧ LinkKept s t ∧ KeptBut [.position, .attention] s t
            ∧ t.position = { s.position with
                reception := none, latch := none, unmatched := min (s.position.unmatched + 1) 65535 }
            ∧ Raised [.markerUnmatched] s t)
        ∧ ∀ (n : Nat) (x : Slot) (r : Record) (k : Marker) (e : Int) (rp : Nat),
          s.table.lowestAt (fun _ y => ∃ q l, y.live = some q ∧ q.marker = some l ∧ l.id = id) n x →
          x.live = some r → r.marker = some k → e = (k.position : Int) - antenna →
          rp = (max 0 (min ((s.position.rp : Int) + e * 256) topPosition)).toNat →
          -- the fix is applied
          (s.position.lock = .noFix ∨ e.natAbs ≤ s.position.window
              ∨ s.position.lock = .doubt ∧ (∃ c, s.position.candidate = some c ∧ (e - c).natAbs ≤ s.position.window) →
            ∃ t, exec i s = .next t ∧ LinkKept s t ∧ KeptBut [.position, .table, .demand, .attention] s t
              ∧ t.position = { s.position with
                  reception := none, latch := none, rp := rp, fixDistance := 0, candidate := none, lock := .locked }
              ∧ t.table = { s.table with
                  slots := s.table.slots.set n { x with confirmed := true, confirmedAt := some (rp / 256) } }
              ∧ t.demand = { s.demand with cars := t.demand.cars }
              ∧ (∀ j, t.demand.cars[j]? = (s.demand.cars[j]?).map fun c =>
                  if j + 1 ≤ s.demand.carCount then { c with fixed := { latched := true, delivered := false } } else c)
              ∧ Raised (if s.position.lock = .locked then [] else [.lockChanged]) s t)
          -- the fix is refused
          ∧ (¬ (s.position.lock = .noFix ∨ e.natAbs ≤ s.position.window
              ∨ s.position.lock = .doubt ∧ (∃ c, s.position.candidate = some c ∧ (e - c).natAbs ≤ s.position.window)) →
            ∃ t, exec i s = .next t ∧ LinkKept s t ∧ KeptBut [.position, .attention] s t
              ∧ t.position = { s.position with
                  reception := none, latch := none, candidate := some e, lock := .doubt }
              ∧ Raised (if s.position.lock = .locked then [.fixRejected, .lockChanged] else []) s t))

/-! ## Record commands -/

/-- OPENR and ABANDR (R45, R46, R57): ASSEMBLY_OPEN with an assembly open; BAD_PARAM on a field out of its range; else
the assembly is opened with every place unwritten and the declared total answered. ABANDR closes it, or is refused
NO_ASSEMBLY. -/
def Obligations.AssemblyIsOpenedAndAbandoned : Prop :=
  (∀ (s : State) (f : OpenFields) (common curve limit : Prop), s.takes (.openr (.exact f)) → s.mode.mode ≠ .config →
    (common ↔ (∃ i, f.intent = .named i) ∧ f.key.toNat ≠ 0 ∧ f.sectionTag ≤ 4095 ∧ f.angleOrCap ≤ 800
      ∧ (f.markerPresent = true → 1 ≤ f.markerId ∧ f.markerId ≤ 16777215)) →
    (curve ↔ f.kind = .named .curve ∧ (∃ h, f.hand = .named h)
      ∧ f.e0.toNat ≤ f.e1.toNat ∧ f.e1.toNat ≤ f.e2.toNat ∧ f.e2.toNat ≤ f.e3.toNat ∧ f.e0.toNat < f.e3.toNat
      ∧ (f.bandPresent = true → f.vZero.toNat < f.vFull.toNat)
      ∧ (f.nIn ≠ 1 ∧ f.nIn ≤ 16) ∧ f.nOut ≠ 1 ∧ f.nOut ≤ 16) →
    (limit ↔ f.kind = .named .limit ∧ f.e0.toNat < f.e3.toNat ∧ f.bandPresent = false ∧ f.nIn = 0 ∧ f.nOut = 0) →
    (s.table.assembly.isSome → ∃ t, exec (.openr (.exact f)) s = .next t
      ∧ Answered s t .openr .assemblyOpen .empty ∧ KeptBut [] s t)
    ∧ (s.table.assembly = none → ¬ (common ∧ (curve ∨ limit)) → ∃ t, exec (.openr (.exact f)) s = .next t
      ∧ Answered s t .openr .badParam .empty ∧ KeptBut [] s t)
    ∧ (s.table.assembly = none → common → curve ∨ limit → ∃ t a, exec (.openr (.exact f)) s = .next t
      ∧ Answered s t .openr .done (.value (f.nIn + f.nOut)) ∧ KeptBut [.table] s t
      ∧ t.table = { s.table with assembly := some a }
      ∧ f.intent = .named a.intent ∧ a.key = f.key.toNat ∧ a.sectionTag = f.sectionTag ∧ a.e0 = f.e0.toNat
      ∧ a.e3 = f.e3.toNat ∧ a.values = [] ∧ a.writePosition = 0
      ∧ a.marker = (if f.markerPresent then some { id := f.markerId, position := f.markerPosition.toNat } else none)
      ∧ (limit → a.body = .limit f.angleOrCap)
      ∧ (curve → ∃ h, f.hand = .named h ∧ a.body = .curve
          { e1 := f.e1.toNat, e2 := f.e2.toNat, hand := h, angle := f.angleOrCap,
            band := if f.bandPresent then some { vZero := f.vZero.toNat, vFull := f.vFull.toNat } else none,
            nIn := f.nIn, nOut := f.nOut })))
  ∧ ∀ s : State, s.takes (.abandr (.exact ())) → s.mode.mode ≠ .config →
    (s.table.assembly = none → ∃ t, exec (.abandr (.exact ())) s = .next t
      ∧ Answered s t .abandr .noAssembly .empty ∧ KeptBut [] s t)
    ∧ (s.table.assembly.isSome → ∃ t, exec (.abandr (.exact ())) s = .next t
      ∧ Answered s t .abandr .done .empty ∧ KeptBut [.table] s t ∧ t.table = { s.table with assembly := none })

/-- PUTP and CONTP (R47 to R49): the values go to successive places from place 0 or from the write position, what falls
beyond the declared total is ignored, places not reached are kept, and the counts are answered. A list of no values, and
one of more than 29 (log 16), is BAD_PARAM; without an assembly NO_ASSEMBLY. -/
def Obligations.ValuesAreWrittenInOrder : Prop :=
  ∀ (s : State) (c : CommandCode) (i : Instr) (values : List Word),
    s.takes i → s.mode.mode ≠ .config →
    c = .putp ∧ i = .putp (.exact values) ∨ c = .contp ∧ i = .contp (.exact values) →
    (values = [] ∨ 29 < values.length → ∃ t, exec i s = .next t ∧ Answered s t c .badParam .empty ∧ KeptBut [] s t)
    ∧ (values ≠ [] → values.length ≤ 29 → s.table.assembly = none →
      ∃ t, exec i s = .next t ∧ Answered s t c .noAssembly .empty ∧ KeptBut [] s t)
    ∧ ∀ (a : Assembly) (place taken count : Nat), values ≠ [] → values.length ≤ 29 → s.table.assembly = some a →
      a.writePosition ≤ a.values.length → a.values.length ≤ a.total →
      place = (if c = .putp then 0 else a.writePosition) → taken = min values.length (a.total - place) →
      count = max a.values.length (place + taken) →
      ∃ t v, exec i s = .next t ∧ KeptBut [.table] s t
        ∧ Answered s t c .done (.written taken (values.length - taken) (a.total - count))
        ∧ t.table = { s.table with assembly := some { a with values := v, writePosition := place + taken } }
        ∧ v.length = count
        ∧ ∀ n, n < count → v[n]? = (if place ≤ n ∧ n < place + taken then (values[n - place]?).map BitVec.toNat
            else a.values[n]?)

/-- CLOSER with every check of R50 passed (R38, R55, R56). NEW: the record is staged in the lowest FREE slot. AMEND: it is
staged in the slot that carries its key, and a pending image that slot held is replaced, its points returned and the
overwritten flag set. The points are reserved, POOL_LOW is raised where the free count passes below 32, and the assembly
is closed. -/
def Obligations.CloserStagesTheRecord : Prop :=
  ∀ (s : State) (a : Assembly) (n : Nat) (x : Slot) (own : Option Nat) (returned free : Nat),
    s.takes (.closer (.exact ())) → s.mode.mode ≠ .config → s.table.assembly = some a → a.complete → a.profilesFit →
    s.table.noSlot (otherHasMarker own a.record) → ¬ s.behindRear a.record →
    s.table.noSlot (otherOverlaps own a.record) →
    a.intent = .new ∧ own = none ∧ returned = 0 ∧ s.table.noSlot (viewHasKey a.key)
        ∧ s.table.lowestAt (fun _ y => y.state = .free) n x
      ∨ a.intent = .amend ∧ own = some n ∧ s.table.lowestAt (viewHasKey a.key) n x
        ∧ x.pending ≠ .withdrawal ∧ x.state ≠ .fading ∧ (∀ r, x.view = some r → r.kind = a.record.kind)
        ∧ returned = imagePoints x.pendingImage →
    a.total ≤ s.table.poolFree + returned →
    free = s.table.poolFree + returned - a.total →
    ∃ t, exec (.closer (.exact ())) s = .next t ∧ Answered s t .closer .done (.staged n free)
      ∧ KeptBut [.table, .attention] s t
      ∧ t.table = { s.table with
          slots := s.table.slots.set n
            { x with pending := .image a.record, overwritten := x.overwritten || x.pendingImage.isSome }
          poolFree := free, assembly := none }
      ∧ Raised (if 32 ≤ s.table.poolFree ∧ free < 32 then [.poolLow] else []) s t

/-- CLOSER without an assembly, and the first failing check of R50 in its order; nothing is changed (R50 to R54). The
place that BAD_PROFILE names is that of the first value above 1024, else of a wrong first value, else of a wrong last one,
within the value list (R51); that this is the order within one profile is the model's reading (DEDUCED, log 15). -/
def Obligations.CloserRefusesInOrder : Prop :=
  (∀ s : State, s.takes (.closer (.exact ())) → s.mode.mode ≠ .config → s.table.assembly = none →
    ∃ t, exec (.closer (.exact ())) s = .next t ∧ Answered s t .closer .noAssembly .empty ∧ KeptBut [] s t)
  ∧ ∀ (s : State) (a : Assembly) (own : Option Nat) (keyOk : Prop),
    s.takes (.closer (.exact ())) → s.mode.mode ≠ .config → s.table.assembly = some a →
    (a.intent = .new → own = none ∧ (keyOk ↔ s.table.noSlot (viewHasKey a.key))) →
    (a.intent = .amend → (∀ n x, s.table.lowestAt (viewHasKey a.key) n x → own = some n)
      ∧ (keyOk ↔ ∃ n x, s.table.lowestAt (viewHasKey a.key) n x ∧ x.pending ≠ .withdrawal ∧ x.state ≠ .fading
        ∧ ∀ r, x.view = some r → r.kind = a.record.kind)) →
    -- 1: a place is unwritten
    (¬ a.complete → ∃ t, exec (.closer (.exact ())) s = .next t ∧ KeptBut [] s t
      ∧ Answered s t .closer .incomplete (.value (a.total - a.values.length)))
    -- 2: a profile breaks R24; an offence of the entry profile goes before one of the exit profile
    ∧ (a.complete → ¬ a.profilesFit → ∃ t which place, exec (.closer (.exact ())) s = .next t ∧ KeptBut [] s t
      ∧ Answered s t .closer .badProfile (.profilePlace which place)
      ∧ (¬ profileFits 0 1024 a.entryProfile → which = .entry ∧ offendsAt 0 0 1024 a.entryProfile place)
      ∧ (profileFits 0 1024 a.entryProfile → which = .exit ∧ offendsAt a.nIn 1024 0 a.exitProfile place))
    -- 3: the key
    ∧ (a.complete → a.profilesFit → a.intent = .new → ∀ n x, s.table.lowestAt (viewHasKey a.key) n x →
      ∃ t, exec (.closer (.exact ())) s = .next t ∧ KeptBut [] s t ∧ Answered s t .closer .keyInUse (.slot n))
    ∧ (a.complete → a.profilesFit → a.intent = .amend → s.table.noSlot (viewHasKey a.key) →
      ∃ t, exec (.closer (.exact ())) s = .next t ∧ KeptBut [] s t ∧ Answered s t .closer .noSuchKey .empty)
    ∧ (a.complete → a.profilesFit → a.intent = .amend → ∀ n x, s.table.lowestAt (viewHasKey a.key) n x →
      (x.pending = .withdrawal → ∃ t, exec (.closer (.exact ())) s = .next t ∧ KeptBut [] s t
        ∧ Answered s t .closer .withdrawn (.slot n))
      ∧ (x.pending ≠ .withdrawal → x.state = .fading → ∃ t, exec (.closer (.exact ())) s = .next t ∧ KeptBut [] s t
        ∧ Answered s t .closer .fading (.slot n))
      ∧ (x.pending ≠ .withdrawal → x.state ≠ .fading → (∃ r, x.view = some r ∧ r.kind ≠ a.record.kind) →
        ∃ t, exec (.closer (.exact ())) s = .next t ∧ KeptBut [] s t ∧ Answered s t .closer .badParam (.slot n)))
    -- 4: the marker
    ∧ (a.complete → a.profilesFit → keyOk → ∀ n x, s.table.lowestAt (otherHasMarker own a.record) n x →
      ∃ t, exec (.closer (.exact ())) s = .next t ∧ KeptBut [] s t ∧ Answered s t .closer .markerInUse (.slot n))
    -- 5: behind the rear car
    ∧ (a.complete → a.profilesFit → keyOk → s.table.noSlot (otherHasMarker own a.record) → s.behindRear a.record →
      ∃ t, exec (.closer (.exact ())) s = .next t ∧ KeptBut [] s t ∧ Answered s t .closer .behind .empty)
    -- 6: the overlap law
    ∧ (a.complete → a.profilesFit → keyOk → s.table.noSlot (otherHasMarker own a.record) → ¬ s.behindRear a.record →
      ∀ n x, s.table.lowestAt (otherOverlaps own a.record) n x →
      ∃ t, exec (.closer (.exact ())) s = .next t ∧ KeptBut [] s t ∧ Answered s t .closer .overlap (.slot n))
    -- 7: no slot is FREE
    ∧ (a.complete → a.profilesFit → keyOk → s.table.noSlot (otherHasMarker own a.record) → ¬ s.behindRear a.record →
      s.table.noSlot (otherOverlaps own a.record) → a.intent = .new → s.table.noSlot (fun _ y => y.state = .free) →
      ∃ t, exec (.closer (.exact ())) s = .next t ∧ KeptBut [] s t ∧ Answered s t .closer .tableFull .empty)
    -- 8: the points
    ∧ (a.complete → a.profilesFit → keyOk → s.table.noSlot (otherHasMarker own a.record) → ¬ s.behindRear a.record →
      s.table.noSlot (otherOverlaps own a.record) →
      (a.intent = .new → ∃ n x, s.table.lowestAt (fun _ y => y.state = .free) n x) →
      ∀ available, (a.intent = .new → available = s.table.poolFree) →
      (a.intent = .amend → ∀ n x, s.table.lowestAt (viewHasKey a.key) n x →
        available = s.table.poolFree + imagePoints x.pendingImage) →
      available < a.total → ∃ t, exec (.closer (.exact ())) s = .next t ∧ KeptBut [] s t
        ∧ Answered s t .closer .poolFull (.points a.total available))

/-- WDRAW, case by case (R58, R59). -/
def Obligations.WdrawFollowsItsCases : Prop :=
  ∀ (s : State) (key : Word) (force : Nat) (i : Instr), s.takes i → s.mode.mode ≠ .config →
    i = .wdraw (.exact { key := key, force := force }) →
    (1 < force → ∃ t, exec i s = .next t ∧ Answered s t .wdraw .badParam .empty ∧ KeptBut [] s t)
    ∧ (force ≤ 1 → s.table.noSlot (viewHasKey key.toNat) →
      ∃ t, exec i s = .next t ∧ Answered s t .wdraw .noSuchKey .empty ∧ KeptBut [] s t)
    ∧ ∀ n x, force ≤ 1 → s.table.lowestAt (viewHasKey key.toNat) n x →
      (x.pending = .withdrawal ∨ x.state = .fading → ∃ t, exec i s = .next t
        ∧ Answered s t .wdraw .already (.slot n) ∧ KeptBut [] s t)
      ∧ (x.state = .staged → ∃ t, exec i s = .next t
        ∧ Answered s t .wdraw .done (.withdrawal n .freed) ∧ KeptBut [.table] s t
        ∧ t.table = { s.table with
            slots := s.table.slots.set n Slot.freed, poolFree := s.table.poolFree + imagePoints x.pendingImage })
      ∧ (x.pending ≠ .withdrawal → x.state = .active → force = 0 → ∃ t, exec i s = .next t
        ∧ Answered s t .wdraw .inUse (.slot n) ∧ KeptBut [] s t)
      ∧ (x.pending ≠ .withdrawal → x.state = .armed ∨ x.state = .active ∧ force = 1 →
        (∀ r q m y, x.pending = .image q → x.live = some r → s.table.lowestAt (otherHasMarker (some n) r) m y →
          ∃ t, exec i s = .next t ∧ Answered s t .wdraw .markerInUse (.slotClash n m) ∧ KeptBut [] s t)
        ∧ (∀ r q m y, x.pending = .image q → x.live = some r → s.table.noSlot (otherHasMarker (some n) r) →
          s.table.lowestAt (otherOverlaps (some n) r) m y →
          ∃ t, exec i s = .next t ∧ Answered s t .wdraw .overlap (.slotClash n m) ∧ KeptBut [] s t)
        ∧ ((∀ r q, x.pending = .image q → x.live = some r →
            s.table.noSlot (otherHasMarker (some n) r) ∧ s.table.noSlot (otherOverlaps (some n) r)) →
          ∃ t, exec i s = .next t ∧ Answered s t .wdraw .done (.withdrawal n .pending) ∧ KeptBut [.table] s t
            ∧ t.table = { s.table with
                slots := s.table.slots.set n
                  { x with pending := .withdrawal, overwritten := x.overwritten || x.pendingImage.isSome }
                poolFree := s.table.poolFree + imagePoints x.pendingImage }))

/-- WDSECT and CLRTAB (R60, R61). WDSECT refuses a tag or mask above 4095 and a force mark above 1; else every slot whose
view's tag agrees in the bits of the mask is handled as WDRAW handles it, as the command finds the table, and the four
kinds are counted. CLRTAB frees the STAGED slots, gives the ARMED and ACTIVE ones a pending withdrawal, leaves the rest,
and drops assembly and coverage. -/
def Obligations.SectionsAndTableAreWithdrawn : Prop :=
  (∀ (s : State) (f : SectionFields), s.takes (.wdsect (.exact f)) → s.mode.mode ≠ .config →
    (4095 < f.tag ∨ 4095 < f.mask ∨ 1 < f.force → ∃ t, exec (.wdsect (.exact f)) s = .next t
      ∧ Answered s t .wdsect .badParam .empty ∧ KeptBut [] s t)
    ∧ ∀ selected : Slot → Bool, f.tag ≤ 4095 → f.mask ≤ 4095 → f.force ≤ 1 →
      (∀ x, selected x = x.view.any fun r => r.sectionTag &&& f.mask = f.tag &&& f.mask) →
      ∀ count : (WithdrawFinding → Bool) → Nat,
      (∀ check, count check = s.table.slots.zipIdx.countP fun p =>
        selected p.1 && check (s.table.judgeWithdraw p.2 p.1 (f.force = 1))) →
      ∃ t : State, exec (.wdsect (.exact f)) s = .next t ∧ KeptBut [.table] s t
        ∧ Answered s t .wdsect .done (.sectionCounts (count fun g => g = .freed ∨ g = .pending) (count fun g => g = .inUse)
            (count WithdrawFinding.isClash) (count fun g => g = .already))
        ∧ t.table.slots.length = s.table.slots.length
        ∧ t.table.poolFree + heldPoints t.table.slots = s.table.poolFree + heldPoints s.table.slots
        ∧ t.table = { s.table with slots := t.table.slots, poolFree := t.table.poolFree }
        ∧ ∀ (n : Nat) (x : Slot), s.table.slots[n]? = some x → t.table.slots[n]? = some
            (if selected x then (s.table.judgeWithdraw n x (f.force = 1)).apply x else x))
  ∧ ∀ s : State, s.takes (.clrtab (.exact ())) → s.mode.mode = .standby ∨ s.mode.mode = .hold →
    ∃ (t : State) (freed withdrawn left : Nat), exec (.clrtab (.exact ())) s = .next t ∧ KeptBut [.table] s t
      ∧ Answered s t .clrtab .done (.cleared freed withdrawn left)
      ∧ freed = s.table.slots.countP (fun x => x.state = .staged)
      ∧ withdrawn = s.table.slots.countP (fun x => (x.state = .armed ∨ x.state = .active) ∧ x.pending ≠ .withdrawal)
      ∧ left = s.table.slots.countP (fun x =>
          x.state = .fading ∨ (x.state = .armed ∨ x.state = .active) ∧ x.pending = .withdrawal)
      ∧ t.table.slots.length = s.table.slots.length
      ∧ t.table.poolFree + heldPoints t.table.slots = s.table.poolFree + heldPoints s.table.slots
      ∧ t.table = { s.table with
          slots := t.table.slots, poolFree := t.table.poolFree, assembly := none, coverage := none }
      ∧ ∀ (n : Nat) (x : Slot), s.table.slots[n]? = some x → ∃ y, t.table.slots[n]? = some y
        ∧ (x.state = .free → y = x)
        ∧ (x.state = .staged → y = Slot.freed)
        ∧ (x.state = .fading → y = x)
        ∧ (x.state = .armed ∨ x.state = .active → x.pending = .withdrawal → y = x)
        ∧ (x.state = .armed ∨ x.state = .active → x.pending ≠ .withdrawal →
          y = { x with pending := .withdrawal, overwritten := x.overwritten || x.pendingImage.isSome })

/-- RDREC and RDSLOT (R30, R62, R63): the refusals; a FREE slot answers its number alone; any other answers the common
items and the part of its live image, or of its pending image where it is STAGED, and its overwritten flag is then
cleared. A LIMIT's hand field of 0 is kept apart from the hands, whose numbers the spec does not give (log 7). -/
def Obligations.RecordsAreReadBack : Prop :=
  (∀ (s : State) (key : Word) (i : Instr) (part : Coded ReadPart), s.takes i →
    i = .rdrec (.exact { key := key, part := part }) →
    (part = .other → ∃ t, exec i s = .next t ∧ Answered s t .rdrec .badParam .empty ∧ KeptBut [] s t)
    ∧ (part ≠ .other → s.table.noSlot (viewHasKey key.toNat) →
      ∃ t, exec i s = .next t ∧ Answered s t .rdrec .noSuchKey .empty ∧ KeptBut [] s t))
  ∧ (∀ (s : State) (n : Nat) (i : Instr) (part : Coded ReadPart), s.takes i →
    i = .rdslot (.exact { slot := n, part := part }) →
    (part = .other ∨ 63 < n → ∃ t, exec i s = .next t ∧ Answered s t .rdslot .badParam .empty ∧ KeptBut [] s t)
    ∧ ∀ x, part ≠ .other → n ≤ 63 → s.table.slots[n]? = some x → x.live = none → x.pending = .none →
      ∃ t, exec i s = .next t ∧ Answered s t .rdslot .done (.freeSlot n) ∧ KeptBut [] s t)
  ∧ ∀ (s : State) (c : CommandCode) (i : Instr) (part : ReadPart) (n : Nat) (x : Slot) (r : Record) (key : Word),
    s.takes i →
    c = .rdslot ∧ i = .rdslot (.exact { slot := n, part := .named part }) ∧ n ≤ 63 ∧ s.table.slots[n]? = some x
      ∨ c = .rdrec ∧ i = .rdrec (.exact { key := key, part := .named part })
        ∧ s.table.lowestAt (viewHasKey key.toNat) n x →
    x.live = some r ∨ x.live = none ∧ x.pending = .image r →
    ∃ t common items, exec i s = .next t ∧ KeptBut [.table] s t ∧ Answered s t c .done (.record common items)
      ∧ t.table = { s.table with slots := s.table.slots.set n { x with overwritten := false } }
      ∧ common = { slot := n, key := r.key, state := x.state, pending := x.pending.kind, fadeLevel := x.fade.getD 0,
                   overwritten := x.overwritten, confirmed := x.confirmed,
                   image := if x.live = none then .pending else .live }
      ∧ (∀ v, r.body = .curve v →
        (part = .entry → items = .entry v.entry) ∧ (part = .exit → items = .exit v.exit)
        ∧ (part = .fields → items = .fields
          { kind := .curve, sectionTag := r.sectionTag, e0 := r.e0, e1 := v.e1, e2 := v.e2, e3 := r.e3,
            hand := .hand v.hand, angleOrCap := v.angle, band := v.band, nIn := v.entry.length,
            nOut := v.exit.length, marker := r.marker, publishedAt := x.publishedAt,
            activatedAt := x.activatedAt, confirmedAt := x.confirmedAt }))
      ∧ ∀ cap, r.body = .limit cap →
        (part = .entry → items = .entry []) ∧ (part = .exit → items = .exit [])
        ∧ (part = .fields → items = .fields
          { kind := .limit, sectionTag := r.sectionTag, e0 := r.e0, e1 := 0, e2 := 0, e3 := r.e3, hand := .zero,
            angleOrCap := cap, band := none, nIn := 0, nOut := 0, marker := r.marker, publishedAt := x.publishedAt,
            activatedAt := x.activatedAt, confirmedAt := x.confirmedAt })

/-- FINDAT (R64): the entries are the live images covering the place, in slot order, the first eight of them; the raw
demand is the sum of the contributions, within 800 and within the least cap of the LIMIT records there; nothing
changes. -/
def Obligations.FindatShowsThePlace : Prop :=
  ∀ (s : State) (p : ChainageField) (all : List FoundRecord) (sum raw demand : Int) (cap : Nat),
    s.takes (.findat (.exact p)) →
    all = (s.table.slots.filterMap fun x => x.live.bind fun r =>
      if r.e0 ≤ p.toNat ∧ p.toNat < r.e3 then some { key := r.key, kind := r.kind, state := x.state } else none) →
    sum = (s.table.slots.map fun x =>
      x.contribution s.demand.limits.band s.position.snapshot.speed (p.toNat : Int)).sum →
    raw = max (-800) (min sum 800) →
    (cap = 800 ∨ ∃ x ∈ s.table.slots, ∃ r, x.live = some r ∧ r.body = .limit cap ∧ r.e0 ≤ p.toNat ∧ p.toNat < r.e3) →
    cap ≤ 800 →
    (∀ x ∈ s.table.slots, ∀ r n, x.live = some r → r.body = .limit n → r.e0 ≤ p.toNat → p.toNat < r.e3 → cap ≤ n) →
    demand = max (-(cap : Int)) (min raw cap) →
    ∃ t, exec (.findat (.exact p)) s = .next t ∧ KeptBut [] s t
      ∧ Answered s t .findat .done (.found (all.take 8) (decide (8 < all.length)) demand)

/-- TSUM (R65): the summary of the table as it stands, and then the changed-slot bitmap cleared. The horizon distance is
from the last snapshot's lead position to the farthest of the far ends of the post-publication view, pending images
included, and the coverage position as they stand; absent where there is none of them (R65, R83). -/
def Obligations.TsumSummarisesTheTable : Prop :=
  ∀ (s : State) (reach : Option Nat), s.takes (.tsum (.exact ())) →
    isFarthest s.position.travel (s.table.reachPlace s.position.travel) reach →
    ∃ t, exec (.tsum (.exact ())) s = .next t ∧ KeptBut [.table] s t
      ∧ t.table = { s.table with bitmap := List.replicate s.table.bitmap.length false }
      ∧ Answered s t .tsum .done (.table
        { counts := { free := s.table.slots.countP fun x => x.state = .free,
                      staged := s.table.slots.countP fun x => x.state = .staged,
                      armed := s.table.slots.countP fun x => x.state = .armed,
                      active := s.table.slots.countP fun x => x.state = .active,
                      fading := s.table.slots.countP fun x => x.state = .fading },
          pendingImages := s.table.slots.countP fun x =>
            (x.state = .armed ∨ x.state = .active) ∧ x.pendingImage.isSome,
          pendingWithdrawals := s.table.slots.countP fun x =>
            (x.state = .armed ∨ x.state = .active) ∧ x.pending = .withdrawal,
          poolFree := s.table.poolFree,
          assembly := s.table.assembly.map fun a => { intent := a.intent, key := a.key, written := a.values.length },
          coverage := s.table.coverage,
          horizon := reach.map fun r : Nat =>
            if s.position.travel = .ascending then (r : Int) - s.position.snapshot.lead
            else (s.position.snapshot.lead : Int) - r,
          bitmap := s.table.bitmap })

/-- COVER (R66): a chainage strictly ahead of the whole-cm part of RP replaces the coverage position; any other is
BAD_PARAM. -/
def Obligations.CoverDeclaresTheTrackAhead : Prop :=
  ∀ (s : State) (p : ChainageField) (isAhead : Prop), s.takes (.cover (.exact p)) → s.mode.mode ≠ .config →
    (isAhead ↔ if s.position.travel = .ascending then s.position.rp / 256 < p.toNat
      else p.toNat < s.position.rp / 256) →
    (¬ isAhead → ∃ t, exec (.cover (.exact p)) s = .next t ∧ Answered s t .cover .badParam .empty ∧ KeptBut [] s t)
    ∧ (isAhead → ∃ t, exec (.cover (.exact p)) s = .next t ∧ Answered s t .cover .done .empty ∧ KeptBut [.table] s t
      ∧ t.table = { s.table with coverage := some p.toNat })

/-! ## Settings, composition, plans, health and attention -/

/-- SETCOMP (R87 to R89, R160): the checks in their order, and the composition replaced whole: plans emptied, a WAITING
request discarded, output state and health as after a reset, and an exchange in flight marked as not to be applied
(log 22). -/
def Obligations.SetcompReplacesTheComposition : Prop :=
  (∀ s : State, s.takes (.setcomp []) → s.mode.mode = .config → ∃ t, exec (.setcomp []) s = .next t
    ∧ Answered s t .setcomp .badParam (.compReason .lengthOfPayload 0) ∧ KeptBut [] s t)
  ∧ (∀ (s : State) (n : Byte) (rest : List Byte), s.takes (.setcomp (n :: rest)) → s.mode.mode = .config →
    rest.length + 1 ≠ 5 + 3 * n.toNat → ∃ t, exec (.setcomp (n :: rest)) s = .next t
      ∧ Answered s t .setcomp .badParam (.compReason .lengthOfPayload 0) ∧ KeptBut [] s t)
  ∧ ∀ (s : State) (c : Composition), s.takes (.setcomp c.bytes) → s.mode.mode = .config → c.fitsPayload →
    (c.cars.length = 0 ∨ 16 < c.cars.length → ∃ t, exec (.setcomp c.bytes) s = .next t
      ∧ Answered s t .setcomp .badParam (.compReason .count 0) ∧ KeptBut [] s t)
    ∧ (1 ≤ c.cars.length → c.cars.length ≤ 16 →
      (∀ k, isLowest c.badAddress k → ∃ t, exec (.setcomp c.bytes) s = .next t
        ∧ Answered s t .setcomp .badParam (.compReason .address k) ∧ KeptBut [] s t)
      ∧ ((∀ k, 1 ≤ k → ¬ c.badAddress k) →
        (∀ k, isLowest c.repeatsAddress k → ∃ t, exec (.setcomp c.bytes) s = .next t
          ∧ Answered s t .setcomp .badParam (.compReason .duplicate k) ∧ KeptBut [] s t)
        ∧ ((∀ k, 1 ≤ k → ¬ c.repeatsAddress k) →
          (∀ k, isLowest c.outOfOrder k → ∃ t, exec (.setcomp c.bytes) s = .next t
            ∧ Answered s t .setcomp .badParam (.compReason .order k) ∧ KeptBut [] s t)
          ∧ ((∀ k, 1 ≤ k → ¬ c.outOfOrder k) →
            (c.badLength → ∃ t, exec (.setcomp c.bytes) s = .next t
              ∧ Answered s t .setcomp .badParam (.compReason .trainLength 0) ∧ KeptBut [] s t)
            ∧ (¬ c.badLength → c.length < c.reader → ∃ t, exec (.setcomp c.bytes) s = .next t
              ∧ Answered s t .setcomp .badParam (.compReason .reader 0) ∧ KeptBut [] s t)))))
    ∧ (c.sound → ∃ t, exec (.setcomp c.bytes) s = .next t
      ∧ Answered s t .setcomp .done (.value c.cars.length) ∧ KeptBut [.demand, .health, .poll] s t
      ∧ t.demand = { s.demand with composition := some c, cars := t.demand.cars }
      ∧ t.demand.cars = List.replicate 16
          { lastSent := 0, changed := { latched := false, delivered := false },
            fixed := { latched := false, delivered := false }, actual := 0, condition := none }
      ∧ t.health = List.replicate 16 { state := .served, counter := 0, recovery := 0 }
      ∧ t.poll = { s.poll with
          active := [], standby := none, manual := t.poll.manual,
          exchange := s.poll.exchange.map fun e => { e with voided := true } }
      ∧ (∀ k, s.poll.manual = .waiting k → t.poll.manual = .empty)
      ∧ ((∀ k, s.poll.manual ≠ .waiting k) → t.poll.manual = s.poll.manual))

/-- SETTRAV (R90): both values named replace travel sense and leading end and empty the latch; any other is BAD_PARAM.
SETLIM (R115): all six settings in range are replaced together; else BAD_PARAM and none changes. -/
def Obligations.OrientationAndLimitsAreReplaced : Prop :=
  (∀ (s : State) (f : OrientationFields), s.takes (.settrav (.exact f)) → s.mode.mode = .config →
    (f.travel = .other ∨ f.lead = .other → ∃ t, exec (.settrav (.exact f)) s = .next t
      ∧ Answered s t .settrav .badParam .empty ∧ KeptBut [] s t)
    ∧ ∀ travel lead, f.travel = .named travel → f.lead = .named lead → ∃ t, exec (.settrav (.exact f)) s = .next t
      ∧ Answered s t .settrav .done .empty ∧ KeptBut [.position, .demand] s t
      ∧ t.position = { s.position with travel := travel, latch := none }
      ∧ t.demand = { s.demand with lead := lead })
  ∧ ∀ (s : State) (f : LimitFields) (ok : Prop), s.takes (.setlim (.exact f)) → s.mode.mode ≠ .running →
    (ok ↔ (1 ≤ f.slew ∧ f.slew ≤ 200) ∧ f.gangway ≤ 800 ∧ f.doubtCap ≤ 800 ∧ f.vZero < f.vFull ∧ f.vFull ≤ 65535
      ∧ 100 ≤ f.previewStep ∧ f.previewStep ≤ 5000) →
    (¬ ok → ∃ t, exec (.setlim (.exact f)) s = .next t ∧ Answered s t .setlim .badParam .empty ∧ KeptBut [] s t)
    ∧ (ok → ∃ t, exec (.setlim (.exact f)) s = .next t ∧ Answered s t .setlim .done .empty ∧ KeptBut [.demand] s t
      ∧ t.demand = { s.demand with limits :=
          { slew := f.slew, gangway := f.gangway, doubtCap := f.doubtCap,
            band := { vZero := f.vZero, vFull := f.vFull }, previewStep := f.previewStep } })

/-- SETCYC (R70): both parameters in range replace the period and the horizon setting, and the cycle being timed keeps
its length; anything else is BAD_PARAM. SETBUS (R131): 100 to 800 in steps of 100 replaces the reply timeout, 0 reads it,
anything else is BAD_PARAM; the exchange in flight keeps its own. -/
def Obligations.CycleAndBusSettingsAreReplaced : Prop :=
  (∀ (s : State) (period horizon : Nat) (i : Instr) (ok : Prop), s.takes i →
    i = .setcyc (.exact { period := period, horizon := horizon }) →
    (ok ↔ 10 ≤ period ∧ period ≤ 40 ∧ (horizon = 0 ∨ 100 ≤ horizon ∧ horizon ≤ 20000)) →
    (¬ ok → ∃ t, exec i s = .next t ∧ Answered s t .setcyc .badParam .empty ∧ KeptBut [] s t)
    ∧ (ok → ∃ t, exec i s = .next t ∧ Answered s t .setcyc .done .empty ∧ KeptBut [.timer, .table] s t
      ∧ t.timer = { s.timer with period := period } ∧ t.table = { s.table with horizonSetting := horizon }))
  ∧ ∀ (s : State) (n : Nat), s.takes (.setbus (.exact n)) →
    (100 ≤ n ∧ n ≤ 800 ∧ n % 100 = 0 → ∃ t, exec (.setbus (.exact n)) s = .next t
      ∧ Answered s t .setbus .done (.bus n s.straps.trate) ∧ KeptBut [.poll] s t
      ∧ t.poll = { s.poll with replyTimeout := n })
    ∧ (n = 0 → ∃ t, exec (.setbus (.exact n)) s = .next t
      ∧ Answered s t .setbus .done (.bus s.poll.replyTimeout s.straps.trate) ∧ KeptBut [] s t)
    ∧ (n ≠ 0 → ¬ (100 ≤ n ∧ n ≤ 800 ∧ n % 100 = 0) → ∃ t, exec (.setbus (.exact n)) s = .next t
      ∧ Answered s t .setbus .badParam .empty ∧ KeptBut [] s t)

/-- LDPLAN, CANPLAN and CANSTBY (R135, R136, R141): the checks of a plan in their order and the standby plan written
READY, DONE or REPLACED; the active plan and its pass ended; the standby plan discarded. -/
def Obligations.PlansAreLoadedAndCancelled : Prop :=
  (∀ s : State, s.takes (.ldplan []) → ∃ t, exec (.ldplan []) s = .next t
    ∧ Answered s t .ldplan .badParam (.planReason .lengthOfPayload 0) ∧ KeptBut [] s t)
  ∧ (∀ (s : State) (n : Byte) (rest : List Byte), s.takes (.ldplan (n :: rest)) → rest.length ≠ 2 * n.toNat →
    ∃ t, exec (.ldplan (n :: rest)) s = .next t
      ∧ Answered s t .ldplan .badParam (.planReason .lengthOfPayload 0) ∧ KeptBut [] s t)
  ∧ (∀ (s : State) (plan : List PlanEntry), s.takes (.ldplan (planBytes plan)) → planFitsPayload plan →
    (24 < plan.length → ∃ t, exec (.ldplan (planBytes plan)) s = .next t
      ∧ Answered s t .ldplan .badParam (.planReason .count 0) ∧ KeptBut [] s t)
    ∧ (plan.length ≤ 24 →
      (∀ k, isLowest (badCar plan s.demand.carCount) k → ∃ t, exec (.ldplan (planBytes plan)) s = .next t
        ∧ Answered s t .ldplan .badParam (.planReason .car k) ∧ KeptBut [] s t)
      ∧ ((∀ k, 1 ≤ k → ¬ badCar plan s.demand.carCount k) → ∀ k, isLowest (badSpan plan) k →
        ∃ t, exec (.ldplan (planBytes plan)) s = .next t
          ∧ Answered s t .ldplan .badParam (.planReason .span k) ∧ KeptBut [] s t))
    ∧ (planFits s.demand.carCount plan → ∃ t, exec (.ldplan (planBytes plan)) s = .next t
      ∧ Answered s t .ldplan (if s.poll.standby.isSome then .replaced else .done) (.value plan.length)
      ∧ KeptBut [.poll] s t ∧ t.poll = { s.poll with standby := some plan }))
  ∧ (∀ s : State, s.takes (.canplan (.exact ())) →
    (s.poll.active = [] → ∃ t, exec (.canplan (.exact ())) s = .next t ∧ Answered s t .canplan .already .empty
      ∧ KeptBut [] s t)
    ∧ (s.poll.active ≠ [] → ∃ t, exec (.canplan (.exact ())) s = .next t ∧ Answered s t .canplan .done .empty
      ∧ KeptBut [.poll] s t ∧ t.poll = { s.poll with active := [], pass := none }))
  ∧ ∀ s : State, s.takes (.canstby (.exact ())) →
    (s.poll.standby = none → ∃ t, exec (.canstby (.exact ())) s = .next t ∧ Answered s t .canstby .already .empty
      ∧ KeptBut [] s t)
    ∧ (s.poll.standby.isSome → ∃ t, exec (.canstby (.exact ())) s = .next t ∧ Answered s t .canstby .done .empty
      ∧ KeptBut [.poll] s t ∧ t.poll = { s.poll with standby := none })

/-- XCHG, CANXCHG and RDXCHG (R143, R145, R147): a request is taken into an EMPTY slot for a car of the composition; a
WAITING one is removed; an UNREAD result is returned once. -/
def Obligations.ManualRequestsAreKept : Prop :=
  (∀ (s : State) (k : Nat), s.takes (.xchg (.exact k)) → s.mode.mode ≠ .config →
    (s.poll.manual ≠ .empty → ∃ t, exec (.xchg (.exact k)) s = .next t ∧ Answered s t .xchg .slotTaken .empty
      ∧ KeptBut [] s t)
    ∧ (s.poll.manual = .empty → k = 0 ∨ s.demand.carCount < k → ∃ t, exec (.xchg (.exact k)) s = .next t
      ∧ Answered s t .xchg .badParam .empty ∧ KeptBut [] s t)
    ∧ (s.poll.manual = .empty → 1 ≤ k → k ≤ s.demand.carCount → ∃ t, exec (.xchg (.exact k)) s = .next t
      ∧ Answered s t .xchg .done .empty ∧ KeptBut [.poll] s t ∧ t.poll = { s.poll with manual := .waiting k }))
  ∧ (∀ s : State, s.takes (.canxchg (.exact ())) →
    (∀ k, s.poll.manual = .waiting k → ∃ t, exec (.canxchg (.exact ())) s = .next t
      ∧ Answered s t .canxchg .done .empty ∧ KeptBut [.poll] s t ∧ t.poll = { s.poll with manual := .empty })
    ∧ (∀ k, s.poll.manual = .inFlight k → ∃ t, exec (.canxchg (.exact ())) s = .next t
      ∧ Answered s t .canxchg .tooLate .empty ∧ KeptBut [] s t)
    ∧ (s.poll.manual = .empty → ∃ t, exec (.canxchg (.exact ())) s = .next t
      ∧ Answered s t .canxchg .already .empty ∧ KeptBut [] s t))
  ∧ ∀ s : State, s.takes (.rdxchg (.exact ())) →
    (∀ r, s.poll.result = .unread r → ∃ t, exec (.rdxchg (.exact ())) s = .next t
      ∧ Answered s t .rdxchg .done (.manual r) ∧ KeptBut [.poll] s t ∧ t.poll = { s.poll with result := .read r })
    ∧ ((∀ r, s.poll.result ≠ .unread r) → ∃ t, exec (.rdxchg (.exact ())) s = .next t
      ∧ Answered s t .rdxchg .noResult .empty ∧ KeptBut [] s t)

/-- What a car's health becomes at each outcome (R152 to R154), and RESTORE (R155, R158): BAD_PARAM for no car of the
composition; a CUT OUT car becomes RECOVERING with both counts 0 and its CARS bit is raised; any other answers ALREADY;
the answer carries car, state and recovery count. -/
def Obligations.HealthFollowsOutcomesAndRestore : Prop :=
  (∀ (n r : Nat), ({ state := .served, counter := n, recovery := r } : CarHealth).count .good
    = { state := .served, counter := n - 1, recovery := r })
  ∧ (∀ (n r : Nat), ({ state := .limited, counter := n, recovery := r } : CarHealth).count .good
    = { state := if n - 1 ≤ 63 then .served else .limited, counter := n - 1, recovery := r })
  ∧ (∀ (n r : Nat) (o : ExchangeOutcome), ({ state := .cutOut, counter := n, recovery := r } : CarHealth).count o
    = { state := .cutOut, counter := n, recovery := r })
  ∧ (∀ (n r : Nat), ({ state := .recovering, counter := n, recovery := r } : CarHealth).count .good
    = if 64 ≤ r + 1 then { state := .served, counter := 0, recovery := 0 }
      else { state := .recovering, counter := n, recovery := r + 1 })
  ∧ (∀ (n r w : Nat) (o : ExchangeOutcome), (o = .timeout ∨ o = .bad) ∧ w = 8 ∨ o = .fault ∧ w = 16 →
    ({ state := .recovering, counter := n, recovery := r } : CarHealth).count o
        = { state := .cutOut, counter := 255, recovery := r }
    ∧ (255 < n + w → ∀ x, x = .served ∨ x = .limited →
        ({ state := x, counter := n, recovery := r } : CarHealth).count o
          = { state := .cutOut, counter := 255, recovery := r })
    ∧ (n + w ≤ 255 → ({ state := .limited, counter := n, recovery := r } : CarHealth).count o
        = { state := .limited, counter := n + w, recovery := r })
    ∧ (n + w ≤ 255 → ({ state := .served, counter := n, recovery := r } : CarHealth).count o
        = { state := if 96 ≤ n + w then .limited else .served, counter := n + w, recovery := r }))
  ∧ ∀ (s : State) (k : Nat), s.takes (.restore (.exact k)) → s.mode.mode ≠ .config →
    (k = 0 ∨ s.demand.carCount < k → ∃ t, exec (.restore (.exact k)) s = .next t
      ∧ Answered s t .restore .badParam .empty ∧ KeptBut [] s t)
    ∧ ∀ h, 1 ≤ k → k ≤ s.demand.carCount → s.health[k - 1]? = some h →
      (h.state = .cutOut → ∃ t, exec (.restore (.exact k)) s = .next t
        ∧ Answered s t .restore .done (.restored k .recovering 0) ∧ KeptBut [.health, .attention] s t
        ∧ t.health = s.health.set (k - 1) { state := .recovering, counter := 0, recovery := 0 }
        ∧ t.link.causes = s.link.causes ∧ t.link.masks = s.link.masks
        ∧ t.link.cars = s.link.cars ||| (1#16 <<< (k - 1)))
      ∧ (h.state ≠ .cutOut → ∃ t, exec (.restore (.exact k)) s = .next t
        ∧ Answered s t .restore .already (.restored k h.state h.recovery) ∧ KeptBut [] s t)

/-- RDATT (R170): the cause word, the CARS bitmap, the masks and the counts are answered, this frame counted; then every
cause and every CARS bit is clear, and ATTN_N is high. The bytes of the answer are those of 10.5. -/
def Obligations.RdattReturnsAndClears : Prop :=
  (∀ s : State, s.takes (.rdatt (.exact ())) → ∃ t r, exec (.rdatt (.exact ())) s = .next t
    ∧ Answered s t .rdatt .done (.attention r) ∧ KeptBut [.attention] s t
    ∧ t.link.causes = 0 ∧ t.link.cars = 0 ∧ t.link.masks = s.link.masks ∧ t.attnLow = false
    ∧ r.causeWord = (if s.link.cars = 0 then s.link.causes else s.link.causes ||| 0x0100#16)
    ∧ r.cars = s.link.cars ∧ r.masks = s.link.masks ∧ r.taken = t.link.taken ∧ r.notTaken = s.link.notTaken
    ∧ r.dropped = s.link.dropped)
  ∧ ∀ r : AttentionReport, ∃ group : Byte,
    (AnswerPayload.attention r).bytes = [group, r.causeWord.truncate 8, (r.causeWord >>> 8).truncate 8,
      r.cars.truncate 8, (r.cars >>> 8).truncate 8, r.masks.truncate 8, (r.masks >>> 8).truncate 8,
      BitVec.ofNat 8 r.taken, BitVec.ofNat 8 (r.taken % 65536 / 256), BitVec.ofNat 8 r.notTaken,
      BitVec.ofNat 8 (r.notTaken % 65536 / 256), BitVec.ofNat 8 r.dropped, BitVec.ofNat 8 (r.dropped % 65536 / 256)]
    ∧ (group.getLsbD 0 ↔ ∃ n, n < 4 ∧ r.causeWord.getLsbD n)
    ∧ (group.getLsbD 1 ↔ ∃ n, 4 ≤ n ∧ n < 8 ∧ r.causeWord.getLsbD n)
    ∧ (group.getLsbD 2 ↔ r.causeWord.getLsbD 8)
    ∧ (group.getLsbD 3 ↔ ∃ n, 9 ≤ n ∧ n < 12 ∧ r.causeWord.getLsbD n)
    ∧ (group.getLsbD 4 ↔ ∃ n, 12 ≤ n ∧ n < 14 ∧ r.causeWord.getLsbD n)
    ∧ (group.getLsbD 5 ↔ r.causeWord.getLsbD 14)
    ∧ group.getLsbD 6 = false ∧ group.getLsbD 7 = false

/-- SETMASK (R171) and ATTN_N (R169): a word with bit 15 set is BAD_PARAM; else the masks are replaced, no cause is
cleared, and the masks now held are answered, as the mask word of 10.5, low byte first. ATTN_N is low exactly while a
cause, or the CARS bitmap, is set whose mask is clear; `portSound` keeps the cause word to its causes. -/
def Obligations.MasksGovernTheAttentionLine : Prop :=
  (∀ (s : State) (w : Word), s.takes (.setmask (.exact w)) →
    (w.getLsbD 15 = true → ∃ t, exec (.setmask (.exact w)) s = .next t ∧ Answered s t .setmask .badParam .empty
      ∧ KeptBut [] s t)
    ∧ (w.getLsbD 15 = false → ∃ t, exec (.setmask (.exact w)) s = .next t ∧ Answered s t .setmask .done (.masks w)
      ∧ KeptBut [.attention] s t ∧ t.link.causes = s.link.causes ∧ t.link.cars = s.link.cars ∧ t.link.masks = w))
  ∧ (∀ w : Word, (AnswerPayload.masks w).bytes = [w.truncate 8, (w >>> 8).truncate 8])
  ∧ ∀ s : State, s.portSound → (s.attnLow = true ↔
      (∃ c : Cause, s.link.causes.getLsbD c.bit = true ∧ s.link.masks.getLsbD c.bit = false)
        ∨ s.link.cars ≠ 0 ∧ s.link.masks.getLsbD 8 = false)

/-! ## The fence -/

/-- The fence outside the table (R5, R6, R69, R71, R81, R110, R137, R138, R140): the snapshot, the cycle distance and
first-fence mark cleared, the next cycle timed with the period in force, CHANGED latched into each car whose look range
meets a changed extent, an overrun counted where a pass had not ended, a READY standby plan swapped in, and a new pass
begun. No cause but OVERRUN, SWAPPED, RETIRED, FADE_DONE and HORIZON_SHORT is touched, no cause is cleared, and the CARS
bitmap and the masks are left (R82, R168; for RETIRED and FADE_DONE see `FenceWorksEverySlot`, for HORIZON_SHORT
`FenceChecksTheHorizon`). While the timer is stopped no fence comes (R67; as a row, log 3). -/
def Obligations.FenceBeginsTheCycle : Prop :=
  (∀ s : State, s.resetHeld = false → s.timer.running = false → exec .fence s = .next s)
  ∧ ∀ (s : State) (length lead : Nat) (active : List PlanEntry), s.resetHeld = false → s.timer.running = true →
    s.timer.cycleLength = some length → lead = s.position.rp / 256 → active = s.poll.standby.getD s.poll.active →
    ∃ t, exec .fence s = .next t ∧ LinkKept s t ∧ KeptBut [.position, .table, .timer, .demand, .poll, .attention] s t
      ∧ t.position = { s.position with
          snapshot :=
            { lead := lead
              speed := if s.position.firstFence then 0
                else min (s.position.cycleDistance.natAbs / 256 * 1000 / length) 65535
              lock := s.position.lock }
          cycleDistance := 0
          firstFence := false }
      ∧ t.timer = { s.timer with
          cycleLength := some s.timer.period
          fencePulses := s.timer.fencePulses + 1
          overruns := if s.poll.pass.isSome then min (s.timer.overruns + 1) 65535 else s.timer.overruns }
      ∧ t.poll = { s.poll with
          active := active, standby := none, pass := if active = [] then none else some 1 }
      ∧ (s.poll.pass.isSome → t.link.isSet .overrun = true) ∧ (s.poll.standby.isSome → t.link.isSet .swapped = true)
      ∧ (s.poll.pass = none → t.link.isSet .overrun = s.link.isSet .overrun)
      ∧ (s.poll.standby = none → t.link.isSet .swapped = s.link.isSet .swapped)
      ∧ (∀ n, (∀ c ∈ [Cause.overrun, .swapped, .retired, .fadeDone, .horizonShort], n ≠ c.bit) →
          t.link.causes.getLsbD n = s.link.causes.getLsbD n)
      ∧ (∀ c, s.link.isSet c = true → t.link.isSet c = true)
      ∧ t.link.cars = s.link.cars ∧ t.link.masks = s.link.masks
      ∧ t.demand = { s.demand with cars := t.demand.cars }
      ∧ ∀ (j : Nat) (o : CarOutput), s.demand.cars[j]? = some o →
        ((∀ p, (s.carPositions lead)[j]? = some p → ∀ x ∈ t.table.changedExtents,
            ¬ (if s.position.travel = .ascending
              then (x.e0 : Int) ≤ p + ((7 * s.demand.limits.previewStep : Nat) : Int) ∧ p < (x.e3 : Int)
              else (x.e0 : Int) ≤ p ∧ p - ((7 * s.demand.limits.previewStep : Nat) : Int) < (x.e3 : Int))) →
          t.demand.cars[j]? = some o)
        ∧ ∀ p x, (s.carPositions lead)[j]? = some p → x ∈ t.table.changedExtents →
          (if s.position.travel = .ascending
            then (x.e0 : Int) ≤ p + ((7 * s.demand.limits.previewStep : Nat) : Int) ∧ p < (x.e3 : Int)
            else (x.e0 : Int) ≤ p ∧ p - ((7 * s.demand.limits.previewStep : Nat) : Int) < (x.e3 : Int)) →
          t.demand.cars[j]? = some { o with changed := { latched := true, delivered := false } }

/-- The slot work of a fence, row by row of the table of fence outcomes, with the bitmap, the pool, the changed extents,
RETIRED and FADE_DONE (R73 to R78, R80 to R82). `Slot.sound`, kept by `ViewLawsHold`, rules out a slot that is fading
and awaits its withdrawal, which no run reaches. -/
def Obligations.FenceWorksEverySlot : Prop :=
  ∀ (s : State) (lead : Nat) (running : Prop), s.resetHeld = false → s.timer.running = true →
    s.table.bitmap.length = s.table.slots.length → (∀ x ∈ s.table.slots, x.sound) → lead = s.position.rp / 256 →
    (running ↔ s.mode.mode = .running) →
    ∃ t, exec .fence s = .next t
      ∧ t.table.slots.length = s.table.slots.length ∧ t.table.bitmap.length = s.table.bitmap.length
      ∧ t.table.poolFree + heldPoints t.table.slots = s.table.poolFree + heldPoints s.table.slots
      ∧ t.table.assembly = s.table.assembly ∧ t.table.coverage = s.table.coverage
      ∧ t.table.horizonSetting = s.table.horizonSetting
      ∧ (∀ (n : Nat) (x : Slot), s.table.slots[n]? = some x → ∃ y, t.table.slots[n]? = some y
        -- a pending image
        ∧ (∀ r, x.pending = .image r →
          (s.carIn lead r → y = { x with
            live := some r, pending := .none, status := .active, confirmed := false, publishedAt := some lead,
            activatedAt := some lead, confirmedAt := none })
          ∧ (s.allPast lead r → y = Slot.freed)
          ∧ (¬ s.carIn lead r → ¬ s.allPast lead r → y = { x with
            live := some r, pending := .none, status := .armed, confirmed := false, publishedAt := some lead,
            activatedAt := none, confirmedAt := none }))
        -- a pending withdrawal
        ∧ (∀ r, x.pending = .withdrawal → x.live = some r →
          (s.carIn lead r ∧ running → y = { x with pending := .none, fade := some 16 })
          ∧ (¬ (s.carIn lead r ∧ running) → y = Slot.freed))
        -- FADING
        ∧ (∀ r n, x.pending = .none → x.live = some r → x.fade = some n →
          (s.allPast lead r → y = Slot.freed)
          ∧ (¬ s.allPast lead r → running ∧ 2 ≤ n → y = { x with fade := some (n - 1) })
          ∧ (¬ s.allPast lead r → ¬ (running ∧ 2 ≤ n) → y = Slot.freed))
        -- live, no pending change, not fading
        ∧ (∀ r, x.pending = .none → x.live = some r → x.fade = none →
          (s.carIn lead r → y = { x with
            status := .active, activatedAt := if x.activatedAt = none then some lead else x.activatedAt })
          ∧ (s.allPast lead r → y = Slot.freed)
          ∧ (¬ s.carIn lead r → ¬ s.allPast lead r → y = { x with status := .armed }))
        -- FREE
        ∧ (x.live = none → x.pending = .none → y = x)
        -- the bitmap
        ∧ ∀ b, s.table.bitmap[n]? = some b →
          t.table.bitmap[n]? = some (b || x.pendingImage.isSome || decide (y.state ≠ x.state)))
      -- the changed extents
      ∧ (∀ e, e ∈ t.table.changedExtents ↔ ∃ x ∈ s.table.slots,
          (∃ r, x.pending = .image r ∧ (e = r.extent ∨ ∃ o, x.live = some o ∧ e = o.extent))
          ∨ (∃ r, x.pending = .withdrawal ∧ x.live = some r ∧ ¬ (s.carIn lead r ∧ running) ∧ e = r.extent)
          ∨ (∃ r, x.pending = .none ∧ x.live = some r ∧ s.allPast lead r ∧ e = r.extent)
          ∨ ∃ r n, x.pending = .none ∧ x.live = some r ∧ x.fade = some n ∧ ¬ (running ∧ 2 ≤ n) ∧ e = r.extent)
      -- RETIRED and FADE_DONE
      ∧ (t.link.isSet .retired = true ↔ s.link.isSet .retired = true ∨ ∃ x ∈ s.table.slots, ∃ r, s.allPast lead r
          ∧ (x.pending = .image r ∨ x.pending = .none ∧ x.live = some r))
      ∧ (t.link.isSet .fadeDone = true ↔ s.link.isSet .fadeDone = true ∨ ∃ x ∈ s.table.slots, ∃ r n,
          x.pending = .none ∧ x.live = some r ∧ x.fade = some n ∧ ¬ s.allPast lead r ∧ ¬ (running ∧ 2 ≤ n))

/-- The reach and the horizon check of a fence (R83, R84): the reach is the farthest of the far ends of the live images
the fence leaves and the coverage position; the mark is set where the setting is not 0 and the distance is absent or less
than the setting; HORIZON_SHORT is raised where the mark becomes set. -/
def Obligations.FenceChecksTheHorizon : Prop :=
  ∀ (s : State), s.resetHeld = false → s.timer.running = true → (∀ x ∈ s.table.slots, x.sound) →
    ∃ t, exec .fence s = .next t
      ∧ (t.table.reach = none ↔ s.table.coverage = none ∧ ∀ x ∈ t.table.slots, x.live = none)
      ∧ (∀ reach, t.table.reach = some reach →
        (s.table.coverage = some reach ∨ ∃ x ∈ t.table.slots, ∃ r, x.live = some r
          ∧ reach = if s.position.travel = .ascending then r.e3 else r.e0)
        ∧ (∀ c, s.table.coverage = some c → if s.position.travel = .ascending then c ≤ reach else reach ≤ c)
        ∧ ∀ x ∈ t.table.slots, ∀ r, x.live = some r →
          if s.position.travel = .ascending then r.e3 ≤ reach else reach ≤ r.e0)
      ∧ (t.table.horizonShort = true ↔ s.table.horizonSetting ≠ 0
        ∧ ∀ reach, t.table.reach = some reach →
          (if s.position.travel = .ascending then (reach : Int) - ((s.position.rp / 256 : Nat) : Int)
            else ((s.position.rp / 256 : Nat) : Int) - reach) < ((s.table.horizonSetting * 100 : Nat) : Int))
      ∧ (t.link.isSet .horizonShort = true ↔ s.link.isSet .horizonShort = true
        ∨ t.table.horizonShort = true ∧ s.table.horizonShort = false)

/-! ## Tilt demand -/

/-- How the demand at a place is formed (R94, R99 to R103): the shape, with the interpolation of R99 over a transition of
length T with the values w, at a distance u from the measuring point (t = u × (n − 1), i = t / T, r = t − i × T); the
speed factor; a slot's contribution; the raw sum; a car's neighbours that are out; the least cap; and the demand, halved
for a LIMITED car. -/
def Obligations.DemandIsFormed : Prop :=
  -- the shape (R99)
  (∀ (c : Curve) (e0 e3 : Nat) (p : Int), e0 ≤ c.e1 → c.e1 ≤ c.e2 → c.e2 ≤ e3 →
    (p < e0 ∨ (e3 : Int) ≤ p → c.shape e0 e3 p = 0)
    ∧ ((c.e1 : Int) ≤ p → p < c.e2 → c.shape e0 e3 p = 1024)
    ∧ ((e0 : Int) ≤ p → p < c.e1 → c.entry = [] →
      c.shape e0 e3 p = (p - e0) * 1024 / ((c.e1 : Int) - e0))
    ∧ ((c.e2 : Int) ≤ p → p < e3 → c.exit = [] →
      c.shape e0 e3 p = ((e3 : Int) - p) * 1024 / ((e3 : Int) - c.e2))
    ∧ ∀ (w : List Nat) (u len t i r wi wNext : Nat), 2 ≤ w.length →
      (e0 : Int) ≤ p ∧ p < c.e1 ∧ w = c.entry ∧ (u : Int) = p - e0 ∧ len = c.e1 - e0
        ∨ (c.e2 : Int) ≤ p ∧ p < e3 ∧ w = c.exit.reverse ∧ (u : Int) = e3 - p ∧ len = e3 - c.e2 →
      t = u * (w.length - 1) → i = t / len → r = t - i * len → w[i]? = some wi → (r ≠ 0 → w[i + 1]? = some wNext) →
      c.shape e0 e3 p = if r = 0 then (wi : Int) else wi + (((wNext : Int) - wi) * r).tdiv len)
  -- the speed factor (R100)
  ∧ (∀ (b : Band) (v : Nat), (v ≤ b.vZero → b.factor v = 0) ∧ (b.vZero < v → b.vFull ≤ v → b.factor v = 1024)
    ∧ (b.vZero < v → v < b.vFull → b.factor v = (v - b.vZero) * 1024 / (b.vFull - b.vZero)))
  -- the contribution of a slot (R101)
  ∧ (∀ (x : Slot) (r : Record) (band : Band) (v : Nat) (p : Int), x.live = some r →
    (p < r.e0 ∨ (r.e3 : Int) ≤ p → x.contribution band v p = 0)
    ∧ (∀ cap, r.body = .limit cap → x.contribution band v p = 0)
    ∧ ∀ c, r.body = .curve c → (r.e0 : Int) ≤ p → p < r.e3 → x.contribution band v p =
      ((if c.hand = .right then 1 else -1) * c.angle * c.shape r.e0 r.e3 p * (c.band.getD band).factor v
        * (x.fade.getD 16)).tdiv 16777216)
  ∧ (∀ (x : Slot) (band : Band) (v : Nat) (p : Int), x.live = none → x.contribution band v p = 0)
  -- the raw sum (R101)
  ∧ (∀ (slots : List Slot) (band : Band) (v : Nat) (p : Int), rawSum slots band v p =
    max (-800) (min (slots.map fun x => x.contribution band v p).sum 800))
  -- the neighbours (R94) and the cap (R102)
  ∧ (∀ (s : State) (k : Nat), 1 ≤ k → (s.neighbourOut k = true ↔ ∃ j, (j + 1 = k ∨ j = k + 1) ∧ 1 ≤ j
    ∧ j ≤ s.demand.carCount ∧ ((s.healthOf j).state = .cutOut ∨ (s.healthOf j).state = .recovering)))
  ∧ (∀ (s : State) (k cap : Nat) (p : Int), cap = s.capFor k p ↔
    cap ≤ 800
    ∧ (∀ x ∈ s.table.slots, ∀ r n, x.live = some r → r.body = .limit n → (r.e0 : Int) ≤ p → p < r.e3 → cap ≤ n)
    ∧ (s.position.snapshot.lock = .doubt → cap ≤ s.demand.limits.doubtCap)
    ∧ (s.neighbourOut k = true → cap ≤ s.demand.limits.gangway)
    ∧ (cap = 800 ∨ (∃ x ∈ s.table.slots, ∃ r, x.live = some r ∧ r.body = .limit cap ∧ (r.e0 : Int) ≤ p ∧ p < r.e3)
      ∨ s.position.snapshot.lock = .doubt ∧ cap = s.demand.limits.doubtCap
      ∨ s.neighbourOut k = true ∧ cap = s.demand.limits.gangway))
  -- the demand (R103)
  ∧ ∀ (s : State) (k : Nat) (p v : Int),
    v = max (-(s.capFor k p : Int))
      (min (rawSum s.table.slots s.demand.limits.band s.position.snapshot.speed p) (s.capFor k p)) →
    s.demandAt k p = if (s.healthOf k).state = .limited then v.tdiv 2 else v

/-- The setpoint and the preview values of a car at a place (R104 to R108): 0 for a car CUT OUT or RECOVERING; else one
step of at most the slew limit from the last sent setpoint toward the target of the mode; preview values as the demand at
the preview points, in RUNNING with a lock and from a car position that stands at a chainage, and else 0; no demand at a
place that stands at no chainage (R92, R107; `recordsSound` keeps every extent to the chainages); and BEYOND where a point
lies beyond the reach. -/
def Obligations.SetpointIsSlewedTowardItsTarget : Prop :=
  (∀ (s : State) (k : Nat) (p : Int), (s.healthOf k).state = .cutOut ∨ (s.healthOf k).state = .recovering →
    s.setpoint k p = 0)
  ∧ (∀ (s : State) (k : Nat) (p g : Int), (s.healthOf k).state = .served ∨ (s.healthOf k).state = .limited →
    (s.mode.mode = .running ∧ s.position.snapshot.lock ≠ .noFix ∧ g = s.demandAt k p
      ∨ s.mode.mode = .running ∧ s.position.snapshot.lock = .noFix ∧ g = 0
      ∨ s.mode.mode = .hold ∧ g = (s.outputOf k).lastSent
      ∨ s.mode.mode = .standby ∧ g = 0) →
    ((g - (s.outputOf k).lastSent).natAbs ≤ s.demand.limits.slew → s.setpoint k p = g)
    ∧ (s.demand.limits.slew < (g - (s.outputOf k).lastSent).natAbs → (s.outputOf k).lastSent < g →
      s.setpoint k p = (s.outputOf k).lastSent + s.demand.limits.slew)
    ∧ (s.demand.limits.slew < (g - (s.outputOf k).lastSent).natAbs → g < (s.outputOf k).lastSent →
      s.setpoint k p = (s.outputOf k).lastSent - s.demand.limits.slew))
  ∧ (∀ (s : State) (p : Int) (span count : Nat),
    (span = 0 ∧ count = 0 ∨ span = 1 ∧ count = 1 ∨ span = 2 ∧ count = 3 ∨ span = 3 ∧ count = 7) →
    (s.previewPoints p span).length = count
    ∧ ∀ j, 1 ≤ j → j ≤ count → (s.previewPoints p span)[j - 1]? = some
      (if s.position.travel = .ascending then p + ((j * s.demand.limits.previewStep : Nat) : Int)
        else p - ((j * s.demand.limits.previewStep : Nat) : Int)))
  ∧ (∀ (s : State) (k : Nat) (p q : Int),
    (s.mode.mode ≠ .running ∨ s.position.snapshot.lock = .noFix → s.preview k p q = 0)
    ∧ (p < 0 ∨ 4294967295 < p → s.preview k p q = 0)
    ∧ (s.mode.mode = .running → s.position.snapshot.lock ≠ .noFix → 0 ≤ p → p ≤ 4294967295 →
      s.preview k p q = s.demandAt k q))
  ∧ (∀ (s : State) (k : Nat) (q : Int), s.recordsSound → q < 0 ∨ 4294967295 < q → s.demandAt k q = 0)
  ∧ ∀ (s : State) (p : Int), (s.table.reach = none → s.beyondReach p = true)
    ∧ ∀ reach, s.table.reach = some reach →
      (s.beyondReach p = true ↔ if s.position.travel = .ascending then (reach : Int) ≤ p else p < (reach : Int))

/-! ## The tilt bus -/

/-- PLAN_ENTRY_SERVED (R98, R105, R107, R109, R112, R121, R139): with the bus IDLE and an entry of the pass left, the
frame of that entry is started: its values and flags formed, the setpoint and the delivered marks of the carried flags
written, the exchange in flight, the pass advanced. Where the bus is not free or no entry is left, nothing is started
(log 3). -/
def Obligations.PlanEntryIsServed : Prop :=
  (∀ s : State, s.resetHeld = false →
    (s.poll.phase ≠ .idle ∨ s.poll.exchange.isSome ∨ (∀ k, s.poll.pass = some k → s.poll.active.length < k)) →
    exec .planEntryServed s = .next s)
  ∧ ∀ (s : State) (k : Nat) (e : PlanEntry) (c : Composition) (car : Car) (d : Nat) (p : Int) (o : CarOutput),
    s.resetHeld = false → s.poll.phase = .idle → s.poll.exchange = none → s.poll.pass = some k → 1 ≤ k →
    s.poll.active[k - 1]? = some e → s.demand.composition = some c → 1 ≤ e.car → c.cars[e.car - 1]? = some car →
    d = (if s.demand.lead = .endA then car.offset else c.length - car.offset) →
    p = (if s.position.travel = .ascending then (s.position.snapshot.lead : Int) - d
      else (s.position.snapshot.lead : Int) + d) →
    s.demand.cars[e.car - 1]? = some o →
    ∃ t flags values, exec .planEntryServed s = .next t ∧ LinkKept s t ∧ KeptBut [.demand, .poll] s t
      ∧ t.poll = { s.poll with
          phase := .sending, pass := some (k + 1), frame := some (.setpoint car.address flags values)
          exchange := some
            { origin := .plan, car := e.car, address := car.address, kind := .setpoint,
              timeout := s.poll.replyTimeout, received := [], framingError := false, voided := false } }
      ∧ values = s.setpoint e.car p :: (s.previewPoints p e.span).map (s.preview e.car p)
      ∧ (flags.holding = true ↔ s.mode.mode ≠ .running)
      ∧ (flags.doubt = true ↔ s.position.snapshot.lock ≠ .locked)
      ∧ (flags.limited = true ↔ (s.healthOf e.car).state = .limited)
      ∧ (flags.cutOut = true ↔ (s.healthOf e.car).state = .cutOut ∨ (s.healthOf e.car).state = .recovering)
      ∧ flags.changed = o.changed.latched ∧ flags.fixed = o.fixed.latched
      ∧ (flags.beyond = true ↔ ∃ q ∈ s.previewPoints p e.span, s.beyondReach q = true)
      ∧ t.demand = { s.demand with cars := t.demand.cars }
      ∧ (∀ j, j ≠ e.car - 1 → t.demand.cars[j]? = s.demand.cars[j]?)
      ∧ t.demand.cars[e.car - 1]? = some { o with
          lastSent := s.setpoint e.car p
          changed := { latched := o.changed.latched, delivered := o.changed.delivered || o.changed.latched }
          fixed := { latched := o.fixed.latched, delivered := o.fixed.delivered || o.fixed.latched } }

/-- MANUAL_EXCHANGE_START starts a WAITING request as an inquiry where no pass is in progress, nothing is in flight and
the bus is IDLE (R121, R144). FRAME_SENT, REPLY_START_BIT and SETTLING_DONE move the bus phase and nothing else (R122,
R127). Where their condition does not hold, these rows change nothing (log 3). TBUS_DE is asserted in SENDING alone
(R118). -/
def Obligations.InquiriesStartAndBusPhasesFollow : Prop :=
  (∀ s : State, s.resetHeld = false →
    (s.poll.phase ≠ .idle ∨ s.poll.exchange.isSome ∨ s.poll.pass.isSome ∨ ∀ k, s.poll.manual ≠ .waiting k) →
    exec .manualExchangeStart s = .next s)
  ∧ (∀ (s : State) (k : Nat) (c : Composition) (car : Car), s.resetHeld = false → s.poll.phase = .idle →
    s.poll.exchange = none → s.poll.pass = none → s.poll.manual = .waiting k → 1 ≤ k →
    s.demand.composition = some c → c.cars[k - 1]? = some car →
    ∃ t, exec .manualExchangeStart s = .next t ∧ LinkKept s t ∧ KeptBut [.poll] s t
      ∧ t.poll = { s.poll with
          phase := .sending, manual := .inFlight k, frame := some (.inquiry car.address)
          exchange := some
            { origin := .manual, car := k, address := car.address, kind := .inquiry,
              timeout := s.poll.replyTimeout, received := [], framingError := false, voided := false } })
  ∧ ∀ (s : State), s.resetHeld = false →
    (s.poll.phase = .sending → ∃ t, exec .frameSent s = .next t ∧ LinkKept s t ∧ KeptBut [.poll] s t
      ∧ t.poll = { s.poll with phase := .awaiting } ∧ s.tbusDe = true ∧ t.tbusDe = false)
    ∧ (s.poll.phase ≠ .sending → exec .frameSent s = .next s ∧ s.tbusDe = false)
    ∧ (s.poll.phase = .awaiting → ∃ t, exec .replyStartBit s = .next t ∧ LinkKept s t ∧ KeptBut [.poll] s t
      ∧ t.poll = { s.poll with phase := .receiving })
    ∧ (s.poll.phase ≠ .awaiting → exec .replyStartBit s = .next s)
    ∧ (s.poll.phase = .settling → ∃ t, exec .settlingDone s = .next t ∧ LinkKept s t ∧ KeptBut [.poll] s t
      ∧ t.poll = { s.poll with phase := .idle })
    ∧ (s.poll.phase ≠ .settling → exec .settlingDone s = .next s)

/-- The bytes on TBUS_TX (R109, R120, R163, 10.5): an inquiry frame is address, kind 0x02 and check; a setpoint frame is
address, kind 0x01, the flags in bits 0 to 6, the value count, each value in two bytes, low byte first and in two's
complement, and check; the check follows low byte first. That the last frame stays on show after it has been sent is the
model's (log 20). -/
def Obligations.TiltFramesAreLaidOut : Prop :=
  (∀ s : State, s.poll.frame = none → s.tbusFrameBytes = none)
  ∧ (∀ (s : State) (address : Nat) (body : List Byte), s.poll.frame = some (.inquiry address) →
    body = [BitVec.ofNat 8 address, 0x02#8] →
    s.tbusFrameBytes = some (body ++ [(checkOf body).truncate 8, (checkOf body >>> 8).truncate 8]))
  ∧ ∀ (s : State) (address : Nat) (flags : FrameFlags) (values : List Int),
    s.poll.frame = some (.setpoint address flags values) → (∀ v ∈ values, leanOk v) →
    ∃ (flagByte : Byte) (fields body : List Byte),
      s.tbusFrameBytes = some (body ++ [(checkOf body).truncate 8, (checkOf body >>> 8).truncate 8])
      ∧ body = [BitVec.ofNat 8 address, 0x01#8, flagByte, BitVec.ofNat 8 values.length] ++ fields
      ∧ flagByte.getLsbD 0 = flags.holding ∧ flagByte.getLsbD 1 = flags.doubt ∧ flagByte.getLsbD 2 = flags.limited
      ∧ flagByte.getLsbD 3 = flags.cutOut ∧ flagByte.getLsbD 4 = flags.changed ∧ flagByte.getLsbD 5 = flags.fixed
      ∧ flagByte.getLsbD 6 = flags.beyond ∧ flagByte.getLsbD 7 = false
      ∧ fields.length = 2 * values.length
      ∧ ∀ j v, values[j]? = some v → ∃ low high, fields[2 * j]? = some low ∧ fields[2 * j + 1]? = some high
          ∧ (BitVec.ofNat 16 (low.toNat + 256 * high.toNat)).toInt = v

/-- The rows that take a reply or its absence (R122 to R126): a byte before the last is added; the last byte completes
the reply, which is judged; a reply cut short is BAD; an expired wait is TIMEOUT; each outcome is taken. REPLY_RECEIVED
carries the last byte, as REPLY_BYTE_TAKEN does (log 10). Out of their phase these rows change nothing (log 3). -/
def Obligations.RepliesEndTheExchange : Prop :=
  (∀ (s : State) (e : Exchange), s.resetHeld = false → s.poll.exchange = some e → 1 ≤ e.car →
    (s.poll.phase = .awaiting → ∃ t, exec .replyTimeout s = .next t ∧ OutcomeTaken s t e .timeout none)
    ∧ (s.poll.phase = .receiving →
      (∀ b ok, e.received.length + 1 < e.kind.replyLength → ∃ t, exec (.replyByteTaken b ok) s = .next t
        ∧ LinkKept s t ∧ KeptBut [.poll] s t
        ∧ t.poll = { s.poll with
            exchange := some { e with received := e.received ++ [b], framingError := e.framingError || !ok } })
      ∧ (∀ b ok i full, e.received.length + 1 = e.kind.replyLength →
        i = .replyByteTaken b ok ∨ i = .replyReceived b ok →
        full = { e with received := e.received ++ [b], framingError := e.framingError || !ok } →
        ∃ t o reply, exec i s = .next t ∧ full.judgedAs o reply ∧ OutcomeTaken s t full o reply)
      ∧ (e.received ≠ [] → e.received.length < e.kind.replyLength → ∃ t, exec .replyCutShort s = .next t
        ∧ OutcomeTaken s t e .bad none)))
  ∧ ∀ (s : State) (b : Byte) (ok : Bool), s.resetHeld = false →
    (s.poll.phase ≠ .awaiting → exec .replyTimeout s = .next s)
    ∧ (s.poll.phase ≠ .receiving → exec (.replyByteTaken b ok) s = .next s ∧ exec (.replyReceived b ok) s = .next s
      ∧ exec .replyCutShort s = .next s)

/-! ## The route link -/

/-- LINK_CHARACTER (R161, R162): the phases of the receiver, the unescaping, the first 64 bytes kept and all counted, and
the mark of a bad stop bit. A flag in FRAME is the row FRAME_CLOSED, and a flag in ESCAPE the row FRAME_ABORTED (log
10); what a flag with a bad stop bit marks is free (log 9). -/
def Obligations.CharactersAreGathered : Prop :=
  ∀ (s : State) (c : Byte) (ok : Bool) (r : Receiver), s.resetHeld = false → r = s.link.receiver →
    (r.phase = .hunt → c ≠ 0x7E#8 → exec (.linkCharacter c ok) s = .next s)
    ∧ (r.phase = .hunt → ∃ t, exec (.linkCharacter 0x7E#8 ok) s = .next t ∧ KeptBut [] s t
      ∧ t.link = { s.link with
          receiver :=
            { phase := .frame, content := [], count := 0, stopBad := !ok && Config.badFlagMarksOpenedFrame } })
    ∧ (r.phase = .frame → ∃ t, exec (.linkCharacter 0x7D#8 ok) s = .next t ∧ KeptBut [] s t
      ∧ t.link = { s.link with receiver := { r with phase := .escape, stopBad := r.stopBad || !ok } })
    ∧ (∀ added, r.phase = .frame ∧ c ≠ 0x7E#8 ∧ c ≠ 0x7D#8 ∧ added = c
        ∨ r.phase = .escape ∧ c ≠ 0x7E#8 ∧ added = c ^^^ 0x20#8 →
      ∃ t, exec (.linkCharacter c ok) s = .next t ∧ KeptBut [] s t
        ∧ t.link = { s.link with
            receiver :=
              { phase := .frame
                content := if r.content.length < 64 then r.content ++ [added] else r.content
                count := r.count + 1
                stopBad := r.stopBad || !ok } })
    ∧ (r.phase = .frame → exec (.linkCharacter 0x7E#8 ok) s = exec (.frameClosed ok) s)
    ∧ (r.phase = .escape → exec (.linkCharacter 0x7E#8 ok) s = exec (.frameAborted ok) s)
    ∧ (r.phase ≠ .frame → exec (.frameClosed ok) s = .next s)
    ∧ (r.phase ≠ .escape → exec (.frameAborted ok) s = .next s)

/-- FRAME_CLOSED and FRAME_ABORTED (R164 to R167, R176, R183): a frame is ignored, dropped by a busy port, answered
NOT_TAKEN, UNKNOWN_COMMAND or WRONG_MODE by the port, or taken and handed to its block with the port ACTING; in each case
the receiver opens a new frame. Between RESET and its reset the port is busy (R183; the stages, log 14). That a frame
taken leaves the port ACTING until its command's own row, within which the block acts, is the model's choice (log 4), and so are
the rows taken as the closing flag itself (log 10) and what a flag with a bad stop bit marks, which is free (log 9). -/
def Obligations.FramesAreJudged : Prop :=
  ∀ (s : State) (ok aborted : Bool) (i : Instr) (r opened : Receiver) (names checkFails : Prop) (echo : Byte),
    s.resetHeld = false → r = s.link.receiver →
    (aborted = false ∧ i = .frameClosed ok ∧ r.phase = .frame ∨ aborted = true ∧ i = .frameAborted ok ∧ r.phase = .escape) →
    opened = { phase := .frame, content := [], count := 0, stopBad := !ok && Config.badFlagMarksOpenedFrame } →
    (names ↔ ∃ a, r.content.head? = some a ∧ a.toNat = 4 * s.straps.laddr.toNat) →
    (checkFails ↔ r.stopBad = true ∨ ok = false ∧ Config.badFlagMarksClosedFrame = true
      ∨ checkOf (r.content.take (r.content.length - 2)) ≠ wordAt r.content (r.content.length - 2)) →
    echo = r.content.getD 1 0 →
    -- ignored
    (¬ names ∨ aborted = false ∧ r.count < 4 → ∃ t, exec i s = .next t ∧ KeptBut [] s t
      ∧ t.link = { s.link with receiver := opened })
    -- dropped by a busy port
    ∧ (names → aborted = true ∨ 4 ≤ r.count → s.link.phase ≠ .idle ∨ s.mode.resetStage ≠ .none →
      ∃ t, exec i s = .next t ∧ KeptBut [.attention] s t
      ∧ t.link = { s.link with
          receiver := opened, dropped := min (s.link.dropped + 1) 65535
          causes := s.link.causes ||| bitWord Cause.frameDropped.bit })
    -- NOT_TAKEN
    ∧ (∀ status : AnswerStatus, names → s.link.phase = .idle → s.mode.resetStage = .none →
      (aborted = true ∧ status = { frameOk := false, checkOk := false, aborted := true, tooLong := false }
        ∨ aborted = false ∧ 64 < r.count
          ∧ status = { frameOk := false, checkOk := false, aborted := false, tooLong := true }
        ∨ aborted = false ∧ 4 ≤ r.count ∧ r.count ≤ 64 ∧ checkFails
          ∧ status = { frameOk := true, checkOk := false, aborted := false, tooLong := false }) →
      ∃ t, exec i s = .next t ∧ KeptBut [.attention] s t
        ∧ t.link = { s.link with
            receiver := opened, phase := .answering, buffer := some (.frame r.content)
            answer := some { code := echo, status := status, result := .notTaken, payload := .empty }
            notTaken := min (s.link.notTaken + 1) 65535
            causes := s.link.causes ||| bitWord Cause.frameBad.bit })
    -- Taken
    ∧ (aborted = false → names → 4 ≤ r.count → r.count ≤ 64 → ¬ checkFails → s.link.phase = .idle →
      s.mode.resetStage = .none →
      ((∀ c : CommandCode, c.byte ≠ echo) → ∃ t, exec i s = .next t ∧ KeptBut [] s t
        ∧ t.link = { s.link with
            receiver := opened, phase := .answering, buffer := some (.frame r.content)
            answer := some
              { code := echo, status := { frameOk := true, checkOk := true, aborted := false, tooLong := false },
                result := .unknownCommand, payload := .empty }
            taken := min (s.link.taken + 1) 65535 })
      ∧ ∀ c : CommandCode, c.byte = echo →
        (c.available s.mode.mode = false → ∃ t, exec i s = .next t ∧ KeptBut [] s t
          ∧ t.link = { s.link with
              receiver := opened, phase := .answering, buffer := some (.frame r.content)
              answer := some
                { code := echo, status := { frameOk := true, checkOk := true, aborted := false, tooLong := false },
                  result := .wrongMode, payload := .empty }
              taken := min (s.link.taken + 1) 65535 })
        ∧ (c.available s.mode.mode = true → ∃ t, exec i s = .next t ∧ KeptBut [] s t
          ∧ t.link = { s.link with
              receiver := opened, phase := .acting, buffer := some (.frame r.content)
              taken := min (s.link.taken + 1) 65535 }))

/-- The frame on LINK_TX (R162, R163, R167, 10.5): none without an answer; else flag, the escaped content and flag, where
the content is the address byte with LADDR and the answer bit, the command code, the status bits, the result code, at most
60 bytes of payload, and the check over them, low byte first. The codes are those of 10.5, and the check is formed byte by
byte as R163 says. The bytes of the payloads without a layout in 10.5 are free (log 8). -/
def Obligations.AnswersAreFramed : Prop :=
  (∀ s : State, s.link.answer = none → s.linkTxFrame = none)
  ∧ (∀ (s : State) (a : Answer), s.link.answer = some a → ∃ (address status : Byte) (body : List Byte),
    s.linkTxFrame = some (0x7E#8
      :: (((body ++ [(checkOf body).truncate 8, (checkOf body >>> 8).truncate 8]).flatMap fun b =>
          if b = 0x7E#8 ∨ b = 0x7D#8 then [0x7D#8, b ^^^ 0x20#8] else [b])
        ++ [0x7E#8]))
    ∧ body = [address, a.code, status, a.result.byte] ++ a.payload.bytes
    ∧ address.toNat = 4 * s.straps.laddr.toNat + 2
    ∧ status.getLsbD 0 = a.status.frameOk ∧ status.getLsbD 1 = a.status.checkOk ∧ status.getLsbD 2 = a.status.aborted
    ∧ status.getLsbD 3 = a.status.tooLong ∧ (∀ n, 4 ≤ n → status.getLsbD n = false)
    ∧ a.payload.bytes.length ≤ 60)
  ∧ AnswerPayload.empty.bytes = []
  ∧ (∀ r : ResultCode, (r, r.byte) ∈ resultCodes) ∧ (∀ c : CommandCode, (c, c.byte) ∈ commandCodes)
  ∧ checkOf [] = 0xFFFF#16
  ∧ ∀ (bytes : List Byte) (b : Byte), checkOf (bytes ++ [b]) =
    (List.range 8).foldl (fun r _ => if r.getLsbD 15 then (r <<< 1) ^^^ 0x1021#16 else r <<< 1)
      (checkOf bytes ^^^ (b.zeroExtend 16 <<< 8))
end

