-- ==== Sys2Proof/Laws/State.lean ====
section
/-! SUPPORT. One lemma per field and per update of State, so that no proof unfolds a record update; and the same for the
operations that change the port alone. -/

namespace Sys2Proof.Machine

/-! ### State.setPosition -/

section
variable (s : State) (x : PositionUnit)

@[simp] theorem State.setPosition_position : (s.setPosition x).position = x := rfl
@[simp] theorem State.setPosition_table : (s.setPosition x).table = s.table := rfl
@[simp] theorem State.setPosition_timer : (s.setPosition x).timer = s.timer := rfl
@[simp] theorem State.setPosition_demand : (s.setPosition x).demand = s.demand := rfl
@[simp] theorem State.setPosition_poll : (s.setPosition x).poll = s.poll := rfl
@[simp] theorem State.setPosition_health : (s.setPosition x).health = s.health := rfl
@[simp] theorem State.setPosition_link : (s.setPosition x).link = s.link := rfl
@[simp] theorem State.setPosition_mode : (s.setPosition x).mode = s.mode := rfl
@[simp] theorem State.setPosition_straps : (s.setPosition x).straps = s.straps := rfl
@[simp] theorem State.setPosition_resetHeld : (s.setPosition x).resetHeld = s.resetHeld := rfl
@[simp] theorem State.setPosition_pending : (s.setPosition x).pending = s.pending := rfl
@[simp] theorem State.setPosition_self : s.setPosition s.position = s := rfl
@[simp] theorem State.setPosition_twice (y : PositionUnit) : (s.setPosition x).setPosition y = s.setPosition y := rfl

end

/-! ### State.setTable -/

section
variable (s : State) (x : CurveTable)

@[simp] theorem State.setTable_position : (s.setTable x).position = s.position := rfl
@[simp] theorem State.setTable_table : (s.setTable x).table = x := rfl
@[simp] theorem State.setTable_timer : (s.setTable x).timer = s.timer := rfl
@[simp] theorem State.setTable_demand : (s.setTable x).demand = s.demand := rfl
@[simp] theorem State.setTable_poll : (s.setTable x).poll = s.poll := rfl
@[simp] theorem State.setTable_health : (s.setTable x).health = s.health := rfl
@[simp] theorem State.setTable_link : (s.setTable x).link = s.link := rfl
@[simp] theorem State.setTable_mode : (s.setTable x).mode = s.mode := rfl
@[simp] theorem State.setTable_straps : (s.setTable x).straps = s.straps := rfl
@[simp] theorem State.setTable_resetHeld : (s.setTable x).resetHeld = s.resetHeld := rfl
@[simp] theorem State.setTable_pending : (s.setTable x).pending = s.pending := rfl
@[simp] theorem State.setTable_self : s.setTable s.table = s := rfl
@[simp] theorem State.setTable_twice (y : CurveTable) : (s.setTable x).setTable y = s.setTable y := rfl

end

/-! ### State.setTimer -/

section
variable (s : State) (x : CycleTimer)

@[simp] theorem State.setTimer_position : (s.setTimer x).position = s.position := rfl
@[simp] theorem State.setTimer_table : (s.setTimer x).table = s.table := rfl
@[simp] theorem State.setTimer_timer : (s.setTimer x).timer = x := rfl
@[simp] theorem State.setTimer_demand : (s.setTimer x).demand = s.demand := rfl
@[simp] theorem State.setTimer_poll : (s.setTimer x).poll = s.poll := rfl
@[simp] theorem State.setTimer_health : (s.setTimer x).health = s.health := rfl
@[simp] theorem State.setTimer_link : (s.setTimer x).link = s.link := rfl
@[simp] theorem State.setTimer_mode : (s.setTimer x).mode = s.mode := rfl
@[simp] theorem State.setTimer_straps : (s.setTimer x).straps = s.straps := rfl
@[simp] theorem State.setTimer_resetHeld : (s.setTimer x).resetHeld = s.resetHeld := rfl
@[simp] theorem State.setTimer_pending : (s.setTimer x).pending = s.pending := rfl
@[simp] theorem State.setTimer_self : s.setTimer s.timer = s := rfl
@[simp] theorem State.setTimer_twice (y : CycleTimer) : (s.setTimer x).setTimer y = s.setTimer y := rfl

end

/-! ### State.setDemand -/

section
variable (s : State) (x : DemandUnit)

@[simp] theorem State.setDemand_position : (s.setDemand x).position = s.position := rfl
@[simp] theorem State.setDemand_table : (s.setDemand x).table = s.table := rfl
@[simp] theorem State.setDemand_timer : (s.setDemand x).timer = s.timer := rfl
@[simp] theorem State.setDemand_demand : (s.setDemand x).demand = x := rfl
@[simp] theorem State.setDemand_poll : (s.setDemand x).poll = s.poll := rfl
@[simp] theorem State.setDemand_health : (s.setDemand x).health = s.health := rfl
@[simp] theorem State.setDemand_link : (s.setDemand x).link = s.link := rfl
@[simp] theorem State.setDemand_mode : (s.setDemand x).mode = s.mode := rfl
@[simp] theorem State.setDemand_straps : (s.setDemand x).straps = s.straps := rfl
@[simp] theorem State.setDemand_resetHeld : (s.setDemand x).resetHeld = s.resetHeld := rfl
@[simp] theorem State.setDemand_pending : (s.setDemand x).pending = s.pending := rfl
@[simp] theorem State.setDemand_self : s.setDemand s.demand = s := rfl
@[simp] theorem State.setDemand_twice (y : DemandUnit) : (s.setDemand x).setDemand y = s.setDemand y := rfl

end

/-! ### State.setPoll -/

section
variable (s : State) (x : PollEngine)

@[simp] theorem State.setPoll_position : (s.setPoll x).position = s.position := rfl
@[simp] theorem State.setPoll_table : (s.setPoll x).table = s.table := rfl
@[simp] theorem State.setPoll_timer : (s.setPoll x).timer = s.timer := rfl
@[simp] theorem State.setPoll_demand : (s.setPoll x).demand = s.demand := rfl
@[simp] theorem State.setPoll_poll : (s.setPoll x).poll = x := rfl
@[simp] theorem State.setPoll_health : (s.setPoll x).health = s.health := rfl
@[simp] theorem State.setPoll_link : (s.setPoll x).link = s.link := rfl
@[simp] theorem State.setPoll_mode : (s.setPoll x).mode = s.mode := rfl
@[simp] theorem State.setPoll_straps : (s.setPoll x).straps = s.straps := rfl
@[simp] theorem State.setPoll_resetHeld : (s.setPoll x).resetHeld = s.resetHeld := rfl
@[simp] theorem State.setPoll_pending : (s.setPoll x).pending = s.pending := rfl
@[simp] theorem State.setPoll_self : s.setPoll s.poll = s := rfl
@[simp] theorem State.setPoll_twice (y : PollEngine) : (s.setPoll x).setPoll y = s.setPoll y := rfl

end

/-! ### State.setHealth -/

section
variable (s : State) (x : List CarHealth)

@[simp] theorem State.setHealth_position : (s.setHealth x).position = s.position := rfl
@[simp] theorem State.setHealth_table : (s.setHealth x).table = s.table := rfl
@[simp] theorem State.setHealth_timer : (s.setHealth x).timer = s.timer := rfl
@[simp] theorem State.setHealth_demand : (s.setHealth x).demand = s.demand := rfl
@[simp] theorem State.setHealth_poll : (s.setHealth x).poll = s.poll := rfl
@[simp] theorem State.setHealth_health : (s.setHealth x).health = x := rfl
@[simp] theorem State.setHealth_link : (s.setHealth x).link = s.link := rfl
@[simp] theorem State.setHealth_mode : (s.setHealth x).mode = s.mode := rfl
@[simp] theorem State.setHealth_straps : (s.setHealth x).straps = s.straps := rfl
@[simp] theorem State.setHealth_resetHeld : (s.setHealth x).resetHeld = s.resetHeld := rfl
@[simp] theorem State.setHealth_pending : (s.setHealth x).pending = s.pending := rfl
@[simp] theorem State.setHealth_self : s.setHealth s.health = s := rfl
@[simp] theorem State.setHealth_twice (y : List CarHealth) : (s.setHealth x).setHealth y = s.setHealth y := rfl

end

/-! ### State.setLink -/

section
variable (s : State) (x : LinkPort)

@[simp] theorem State.setLink_position : (s.setLink x).position = s.position := rfl
@[simp] theorem State.setLink_table : (s.setLink x).table = s.table := rfl
@[simp] theorem State.setLink_timer : (s.setLink x).timer = s.timer := rfl
@[simp] theorem State.setLink_demand : (s.setLink x).demand = s.demand := rfl
@[simp] theorem State.setLink_poll : (s.setLink x).poll = s.poll := rfl
@[simp] theorem State.setLink_health : (s.setLink x).health = s.health := rfl
@[simp] theorem State.setLink_link : (s.setLink x).link = x := rfl
@[simp] theorem State.setLink_mode : (s.setLink x).mode = s.mode := rfl
@[simp] theorem State.setLink_straps : (s.setLink x).straps = s.straps := rfl
@[simp] theorem State.setLink_resetHeld : (s.setLink x).resetHeld = s.resetHeld := rfl
@[simp] theorem State.setLink_pending : (s.setLink x).pending = s.pending := rfl
@[simp] theorem State.setLink_self : s.setLink s.link = s := rfl
@[simp] theorem State.setLink_twice (y : LinkPort) : (s.setLink x).setLink y = s.setLink y := rfl

end

/-! ### State.setMode -/

section
variable (s : State) (x : ModeControl)

@[simp] theorem State.setMode_position : (s.setMode x).position = s.position := rfl
@[simp] theorem State.setMode_table : (s.setMode x).table = s.table := rfl
@[simp] theorem State.setMode_timer : (s.setMode x).timer = s.timer := rfl
@[simp] theorem State.setMode_demand : (s.setMode x).demand = s.demand := rfl
@[simp] theorem State.setMode_poll : (s.setMode x).poll = s.poll := rfl
@[simp] theorem State.setMode_health : (s.setMode x).health = s.health := rfl
@[simp] theorem State.setMode_link : (s.setMode x).link = s.link := rfl
@[simp] theorem State.setMode_mode : (s.setMode x).mode = x := rfl
@[simp] theorem State.setMode_straps : (s.setMode x).straps = s.straps := rfl
@[simp] theorem State.setMode_resetHeld : (s.setMode x).resetHeld = s.resetHeld := rfl
@[simp] theorem State.setMode_pending : (s.setMode x).pending = s.pending := rfl
@[simp] theorem State.setMode_self : s.setMode s.mode = s := rfl
@[simp] theorem State.setMode_twice (y : ModeControl) : (s.setMode x).setMode y = s.setMode y := rfl

end

/-! ### State.setResetHeld -/

section
variable (s : State) (x : Bool)

@[simp] theorem State.setResetHeld_position : (s.setResetHeld x).position = s.position := rfl
@[simp] theorem State.setResetHeld_table : (s.setResetHeld x).table = s.table := rfl
@[simp] theorem State.setResetHeld_timer : (s.setResetHeld x).timer = s.timer := rfl
@[simp] theorem State.setResetHeld_demand : (s.setResetHeld x).demand = s.demand := rfl
@[simp] theorem State.setResetHeld_poll : (s.setResetHeld x).poll = s.poll := rfl
@[simp] theorem State.setResetHeld_health : (s.setResetHeld x).health = s.health := rfl
@[simp] theorem State.setResetHeld_link : (s.setResetHeld x).link = s.link := rfl
@[simp] theorem State.setResetHeld_mode : (s.setResetHeld x).mode = s.mode := rfl
@[simp] theorem State.setResetHeld_straps : (s.setResetHeld x).straps = s.straps := rfl
@[simp] theorem State.setResetHeld_resetHeld : (s.setResetHeld x).resetHeld = x := rfl
@[simp] theorem State.setResetHeld_pending : (s.setResetHeld x).pending = s.pending := rfl
@[simp] theorem State.setResetHeld_self : s.setResetHeld s.resetHeld = s := rfl
@[simp] theorem State.setResetHeld_twice (y : Bool) : (s.setResetHeld x).setResetHeld y = s.setResetHeld y := rfl

end

/-! ### State.setPending -/

section
variable (s : State) (x : List Instr)

@[simp] theorem State.setPending_position : (s.setPending x).position = s.position := rfl
@[simp] theorem State.setPending_table : (s.setPending x).table = s.table := rfl
@[simp] theorem State.setPending_timer : (s.setPending x).timer = s.timer := rfl
@[simp] theorem State.setPending_demand : (s.setPending x).demand = s.demand := rfl
@[simp] theorem State.setPending_poll : (s.setPending x).poll = s.poll := rfl
@[simp] theorem State.setPending_health : (s.setPending x).health = s.health := rfl
@[simp] theorem State.setPending_link : (s.setPending x).link = s.link := rfl
@[simp] theorem State.setPending_mode : (s.setPending x).mode = s.mode := rfl
@[simp] theorem State.setPending_straps : (s.setPending x).straps = s.straps := rfl
@[simp] theorem State.setPending_resetHeld : (s.setPending x).resetHeld = s.resetHeld := rfl
@[simp] theorem State.setPending_pending : (s.setPending x).pending = x := rfl
@[simp] theorem State.setPending_self : s.setPending s.pending = s := rfl
@[simp] theorem State.setPending_twice (y : List Instr) : (s.setPending x).setPending y = s.setPending y := rfl

end

/-! ### State.raise, State.raiseIf and State.answer change the port alone -/

section
variable (s : State) (c : Cause) (b : Bool) (k : CommandCode) (r : ResultCode) (p : AnswerPayload)

@[simp] theorem State.raise_position : (s.raise c).position = s.position := rfl
@[simp] theorem State.raise_table : (s.raise c).table = s.table := rfl
@[simp] theorem State.raise_timer : (s.raise c).timer = s.timer := rfl
@[simp] theorem State.raise_demand : (s.raise c).demand = s.demand := rfl
@[simp] theorem State.raise_poll : (s.raise c).poll = s.poll := rfl
@[simp] theorem State.raise_health : (s.raise c).health = s.health := rfl
@[simp] theorem State.raise_mode : (s.raise c).mode = s.mode := rfl
@[simp] theorem State.raise_straps : (s.raise c).straps = s.straps := rfl
@[simp] theorem State.raise_resetHeld : (s.raise c).resetHeld = s.resetHeld := rfl
@[simp] theorem State.raise_pending : (s.raise c).pending = s.pending := rfl
@[simp] theorem State.raiseIf_position : (s.raiseIf b c).position = s.position := rfl
@[simp] theorem State.raiseIf_table : (s.raiseIf b c).table = s.table := rfl
@[simp] theorem State.raiseIf_timer : (s.raiseIf b c).timer = s.timer := rfl
@[simp] theorem State.raiseIf_demand : (s.raiseIf b c).demand = s.demand := rfl
@[simp] theorem State.raiseIf_poll : (s.raiseIf b c).poll = s.poll := rfl
@[simp] theorem State.raiseIf_health : (s.raiseIf b c).health = s.health := rfl
@[simp] theorem State.raiseIf_mode : (s.raiseIf b c).mode = s.mode := rfl
@[simp] theorem State.raiseIf_straps : (s.raiseIf b c).straps = s.straps := rfl
@[simp] theorem State.raiseIf_resetHeld : (s.raiseIf b c).resetHeld = s.resetHeld := rfl
@[simp] theorem State.raiseIf_pending : (s.raiseIf b c).pending = s.pending := rfl
@[simp] theorem State.answer_position : (s.answer k r p).position = s.position := rfl
@[simp] theorem State.answer_table : (s.answer k r p).table = s.table := rfl
@[simp] theorem State.answer_timer : (s.answer k r p).timer = s.timer := rfl
@[simp] theorem State.answer_demand : (s.answer k r p).demand = s.demand := rfl
@[simp] theorem State.answer_poll : (s.answer k r p).poll = s.poll := rfl
@[simp] theorem State.answer_health : (s.answer k r p).health = s.health := rfl
@[simp] theorem State.answer_mode : (s.answer k r p).mode = s.mode := rfl
@[simp] theorem State.answer_straps : (s.answer k r p).straps = s.straps := rfl
@[simp] theorem State.answer_resetHeld : (s.answer k r p).resetHeld = s.resetHeld := rfl
@[simp] theorem State.answer_pending : (s.answer k r p).pending = s.pending := rfl
@[simp] theorem State.raise_link : (s.raise c).link = s.link.raise c := rfl
@[simp] theorem State.raiseIf_link : (s.raiseIf b c).link = s.link.raiseIf b c := rfl
@[simp] theorem State.answer_link :
    (s.answer k r p).link = s.link.respond { code := k.byte, status := .taken, result := r, payload := p } := rfl

end

/-! ### The port under a cause raised -/

section
variable (l : LinkPort) (c : Cause) (b : Bool)

@[simp] theorem LinkPort.raise_receiver : (l.raise c).receiver = l.receiver := rfl
@[simp] theorem LinkPort.raise_phase : (l.raise c).phase = l.phase := rfl
@[simp] theorem LinkPort.raise_buffer : (l.raise c).buffer = l.buffer := rfl
@[simp] theorem LinkPort.raise_answer : (l.raise c).answer = l.answer := rfl
@[simp] theorem LinkPort.raise_taken : (l.raise c).taken = l.taken := rfl
@[simp] theorem LinkPort.raise_notTaken : (l.raise c).notTaken = l.notTaken := rfl
@[simp] theorem LinkPort.raise_dropped : (l.raise c).dropped = l.dropped := rfl
@[simp] theorem LinkPort.raise_cars : (l.raise c).cars = l.cars := rfl
@[simp] theorem LinkPort.raise_masks : (l.raise c).masks = l.masks := rfl
@[simp] theorem LinkPort.raise_causes : (l.raise c).causes = l.causes ||| bitWord c.bit := rfl
@[simp] theorem LinkPort.raiseIf_receiver : (l.raiseIf b c).receiver = l.receiver := by cases b <;> rfl
@[simp] theorem LinkPort.raiseIf_phase : (l.raiseIf b c).phase = l.phase := by cases b <;> rfl
@[simp] theorem LinkPort.raiseIf_buffer : (l.raiseIf b c).buffer = l.buffer := by cases b <;> rfl
@[simp] theorem LinkPort.raiseIf_answer : (l.raiseIf b c).answer = l.answer := by cases b <;> rfl
@[simp] theorem LinkPort.raiseIf_taken : (l.raiseIf b c).taken = l.taken := by cases b <;> rfl
@[simp] theorem LinkPort.raiseIf_notTaken : (l.raiseIf b c).notTaken = l.notTaken := by cases b <;> rfl
@[simp] theorem LinkPort.raiseIf_dropped : (l.raiseIf b c).dropped = l.dropped := by cases b <;> rfl
@[simp] theorem LinkPort.raiseIf_cars : (l.raiseIf b c).cars = l.cars := by cases b <;> rfl
@[simp] theorem LinkPort.raiseIf_masks : (l.raiseIf b c).masks = l.masks := by cases b <;> rfl
@[simp] theorem LinkPort.raiseIf_causes :
    (l.raiseIf b c).causes = if b then l.causes ||| bitWord c.bit else l.causes := by cases b <;> rfl
@[simp] theorem LinkPort.raiseIf_true : l.raiseIf true c = l.raise c := rfl
@[simp] theorem LinkPort.raiseIf_false : l.raiseIf false c = l := rfl

end

/-! ### The lock -/

section
variable (s : State) (l : Lock)

@[simp] theorem State.setLock_table : (s.setLock l).table = s.table := rfl
@[simp] theorem State.setLock_timer : (s.setLock l).timer = s.timer := rfl
@[simp] theorem State.setLock_demand : (s.setLock l).demand = s.demand := rfl
@[simp] theorem State.setLock_poll : (s.setLock l).poll = s.poll := rfl
@[simp] theorem State.setLock_health : (s.setLock l).health = s.health := rfl
@[simp] theorem State.setLock_mode : (s.setLock l).mode = s.mode := rfl
@[simp] theorem State.setLock_straps : (s.setLock l).straps = s.straps := rfl
@[simp] theorem State.setLock_resetHeld : (s.setLock l).resetHeld = s.resetHeld := rfl
@[simp] theorem State.setLock_pending : (s.setLock l).pending = s.pending := rfl
@[simp] theorem State.setLock_position : (s.setLock l).position = { s.position with lock := l } := rfl
@[simp] theorem State.setLock_link :
    (s.setLock l).link = s.link.raiseIf (decide (s.position.lock ≠ l)) .lockChanged := rfl

end

end Sys2Proof.Machine
end

