-- ==== Sys2Proof/Laws/Commands.lean ====
section
/-! SUPPORT. What taking a link command can do: the four ways of runCommand (held, busy, wrong mode, acted on), what the
answer leaves of the port, and how a property passes through a command. -/

namespace Sys2Proof.Machine

/-- The port with a command's row taken in: the frame buffered and counted where the port was IDLE (R164, R165). -/
def LinkPort.admitted (l : LinkPort) (c : CommandCode) : LinkPort :=
  if l.phase = .idle then { l with phase := .acting, buffer := some (.command c), taken := bump l.taken } else l

/-- The state whose port has taken a command's row in. -/
def State.admitted (s : State) (c : CommandCode) : State := s.setLink (s.link.admitted c)

section
variable (s : State) (l : LinkPort) (c : CommandCode)

@[simp] theorem LinkPort.admitted_receiver : (l.admitted c).receiver = l.receiver := by
  unfold LinkPort.admitted; split <;> rfl
@[simp] theorem LinkPort.admitted_notTaken : (l.admitted c).notTaken = l.notTaken := by
  unfold LinkPort.admitted; split <;> rfl
@[simp] theorem LinkPort.admitted_dropped : (l.admitted c).dropped = l.dropped := by
  unfold LinkPort.admitted; split <;> rfl
@[simp] theorem LinkPort.admitted_causes : (l.admitted c).causes = l.causes := by
  unfold LinkPort.admitted; split <;> rfl
@[simp] theorem LinkPort.admitted_cars : (l.admitted c).cars = l.cars := by
  unfold LinkPort.admitted; split <;> rfl
@[simp] theorem LinkPort.admitted_masks : (l.admitted c).masks = l.masks := by
  unfold LinkPort.admitted; split <;> rfl

@[simp] theorem State.admitted_position : (s.admitted c).position = s.position := rfl
@[simp] theorem State.admitted_table : (s.admitted c).table = s.table := rfl
@[simp] theorem State.admitted_timer : (s.admitted c).timer = s.timer := rfl
@[simp] theorem State.admitted_demand : (s.admitted c).demand = s.demand := rfl
@[simp] theorem State.admitted_poll : (s.admitted c).poll = s.poll := rfl
@[simp] theorem State.admitted_health : (s.admitted c).health = s.health := rfl
@[simp] theorem State.admitted_link : (s.admitted c).link = s.link.admitted c := rfl
@[simp] theorem State.admitted_mode : (s.admitted c).mode = s.mode := rfl
@[simp] theorem State.admitted_straps : (s.admitted c).straps = s.straps := rfl
@[simp] theorem State.admitted_resetHeld : (s.admitted c).resetHeld = s.resetHeld := rfl
@[simp] theorem State.admitted_pending : (s.admitted c).pending = s.pending := rfl

end

/-! ### The ways of runCommand -/

/-- A buffer that holds a row's frame holds its command's code. -/
theorem Buffered.holds_code {b : Buffered} {c : CommandCode} {i : Instr} (h : b.holds c i = true) : b.code = some c := by
  cases b with
  | frame content => simp only [Buffered.holds, Bool.and_eq_true, decide_eq_true_eq] at h; exact h.1
  | command d => simp only [Buffered.holds, decide_eq_true_eq] at h; simp [Buffered.code, h]

/-- The port takes every row of a command. -/
def State.takesEvery (s : State) (c : CommandCode) : Prop := ∀ i : Instr, i.code? = some c → s.takes i

/-- An IDLE port with RESET_N released and no reset ahead takes every row. -/
theorem idle_takes {s : State} (c : CommandCode) (hr : s.resetHeld = false) (hs : s.mode.resetStage = .none)
    (hp : s.link.phase = .idle) : s.takesEvery c := fun _ _ => ⟨hr, hs, Or.inl hp⟩

/-- A port that takes the row in admits it. -/
theorem takeIn_of_takes {s : State} {c : CommandCode} {i : Instr} (h : s.takes i) (hi : i.code? = some c) :
    s.takeIn c i = some (s.link.admitted c) := by
  obtain ⟨_, hs, h | ⟨h, d, b, hd, hb, hh⟩⟩ := h
  · simp [State.takeIn, State.resetAhead, LinkPort.admitted, h, hs]
  · obtain rfl : c = d := Option.some.inj (hi.symm.trans hd)
    simp [State.takeIn, State.resetAhead, LinkPort.admitted, h, hs, hb, hh]

/-- A port that does not take the row in, with RESET_N released, is busy. -/
theorem takeIn_of_not_takes {s : State} {c : CommandCode} {i : Instr} (hr : s.resetHeld = false) (hi : i.code? = some c)
    (h : ¬ s.takes i) : s.takeIn c i = none := by
  unfold State.takes at h
  unfold State.takeIn State.resetAhead
  cases hs : s.mode.resetStage <;> cases hp : s.link.phase <;> cases hb : s.link.buffer <;> simp_all

/-- Acted on: the mode allows the command. -/
theorem runCommand_taken {s : State} {c : CommandCode} {i : Instr} (owner : State → CommandResult) (h : s.takes i)
    (hi : i.code? = some c) (ha : c.available s.mode.mode = true) :
    runCommand c i owner s =
      .next ((owner (s.admitted c)).state.answer c (owner (s.admitted c)).result (owner (s.admitted c)).payload) := by
  unfold runCommand unlessHeld
  rw [takeIn_of_takes h hi]
  simp [State.act, ha, h.1, State.admitted]

/-- Refused WRONG_MODE: the mode does not allow the command. -/
theorem runCommand_wrongMode {s : State} {c : CommandCode} {i : Instr} (owner : State → CommandResult) (h : s.takes i)
    (hi : i.code? = some c) (ha : c.available s.mode.mode = false) :
    runCommand c i owner s = .next ((s.admitted c).answer c .wrongMode .empty) := by
  unfold runCommand unlessHeld
  rw [takeIn_of_takes h hi]
  simp [State.act, ha, h.1, State.admitted]

/-- Dropped: the port is busy. -/
theorem runCommand_busy {s : State} {c : CommandCode} {i : Instr} (owner : State → CommandResult)
    (hr : s.resetHeld = false) (hi : i.code? = some c) (h : ¬ s.takes i) :
    runCommand c i owner s = .next (s.setLink s.link.drop) := by
  unfold runCommand unlessHeld
  rw [takeIn_of_not_takes hr hi h]
  simp [hr]

/-- Ignored: RESET_N is held low. -/
theorem runCommand_held {s : State} {c : CommandCode} {i : Instr} (owner : State → CommandResult)
    (hr : s.resetHeld = true) : runCommand c i owner s = .next s := by
  simp [runCommand, unlessHeld, hr]

/-- A property that the port does not bear on passes through a command row whose block keeps it. -/
theorem runCommand_keeps {P : State → Prop} {c : CommandCode} {i : Instr} {owner : State → CommandResult} {s t : State}
    (hlink : ∀ u l, P u → P (u.setLink l))
    (howner : ∀ u, P u → c.available u.mode.mode = true → P (owner u).state)
    (hs : P s) (h : runCommand c i owner s = .next t) : P t := by
  unfold runCommand unlessHeld at h
  simp only [Host.Outcome.next.injEq] at h
  subst h
  split
  · exact hs
  · split
    · unfold State.act
      split
      · exact hlink _ _ (howner _ (hlink _ _ hs) (by assumption))
      · exact hlink _ _ (hlink _ _ hs)
    · exact hlink _ _ hs

/-- Every row under `unlessHeld` keeps a property that the row's next state keeps. -/
theorem unlessHeld_keeps {P : State → Prop} {s u t : State} (hs : P s) (hu : P u) (h : unlessHeld s u = .next t) : P t := by
  unfold unlessHeld at h
  simp only [Host.Outcome.next.injEq] at h
  subst h
  split <;> assumption

/-- A row under `unlessHeld`, with RESET_N released. -/
theorem unlessHeld_released {s u : State} (h : s.resetHeld = false) : unlessHeld s u = .next u := by
  simp [unlessHeld, h]

/-! ### The answer -/

/-- What answering leaves of the port, where the block left its link side as the admission put it. -/
theorem answered_of_takes {s u : State} {c : CommandCode} {i : Instr} (r : ResultCode) (p : AnswerPayload)
    (h : s.takes i) (hi : i.code? = some c) (hk : LinkKept (s.admitted c) u) : Answered s (u.answer c r p) c r p := by
  obtain ⟨h1, _, h3, _, h5, h6, h7⟩ := hk
  obtain ⟨_, _, hp⟩ := h
  refine ⟨rfl, rfl, ?_, ?_, ?_, ?_, ?_⟩
  · rcases hp with hp | ⟨hp, d, b, hd, hb, hh⟩
    · simp [State.answer, LinkPort.respond, h3, LinkPort.admitted, hp, Buffered.code]
    · obtain rfl : c = d := Option.some.inj (hi.symm.trans hd)
      simp [State.answer, LinkPort.respond, h3, LinkPort.admitted, hp, hb, Buffered.holds_code hh]
  · rcases hp with hp | ⟨hp, _⟩
    · simp [State.answer, LinkPort.respond, h5, LinkPort.admitted, hp, bump, maxCount]
    · simp [State.answer, LinkPort.respond, h5, LinkPort.admitted, hp]
  · simp [State.answer, LinkPort.respond, h1]
  · simp [State.answer, LinkPort.respond, h6]
  · simp [State.answer, LinkPort.respond, h7]

/-- A port whose link side has not changed. -/
theorem LinkKept.refl (s : State) : LinkKept s s := ⟨rfl, rfl, rfl, rfl, rfl, rfl, rfl⟩

/-- Answering changes no part but the link side of the port. -/
theorem KeptBut.answer {named : List Block} {s u : State} {c : CommandCode} (r : ResultCode) (p : AnswerPayload)
    (h : KeptBut named (s.admitted c) u) : KeptBut named s (u.answer c r p) := by
  obtain ⟨hb, h1, h2, h3⟩ := h
  refine ⟨fun b => (hb b).imp id fun hs => ?_, h1, h2, h3⟩
  cases b <;> simpa [Block.same, State.answer, LinkPort.respond] using hs

/-- Nothing changed. -/
theorem KeptBut.refl (named : List Block) (s : State) : KeptBut named s s :=
  ⟨fun b => Or.inr (by cases b <;> simp [Block.same]), rfl, rfl, rfl⟩

/-- A command row that its block answers, changing the parts named and leaving the link side of the port. -/
theorem runCommand_answers {c : CommandCode} {i : Instr} {owner : State → CommandResult} {s : State} (u : State)
    {r : ResultCode} {p : AnswerPayload} {named : List Block} {Q : State → Prop} (h : s.takes i)
    (hi : i.code? = some c) (ha : c.available s.mode.mode = true)
    (ho : owner (s.admitted c) = { state := u, result := r, payload := p })
    (hl : LinkKept (s.admitted c) u) (hk : KeptBut named (s.admitted c) u) (hq : Q (u.answer c r p)) :
    ∃ t, runCommand c i owner s = .next t ∧ Answered s t c r p ∧ KeptBut named s t ∧ Q t :=
  ⟨u.answer c r p, by rw [runCommand_taken owner h hi ha, ho], answered_of_takes _ _ h hi hl, hk.answer _ _, hq⟩

/-- A command row that its block answers, changing nothing: a refusal or a read. -/
theorem runCommand_answers_unchanged {c : CommandCode} {i : Instr} {owner : State → CommandResult} {s : State}
    {r : ResultCode} {p : AnswerPayload} (h : s.takes i) (hi : i.code? = some c) (ha : c.available s.mode.mode = true)
    (ho : owner (s.admitted c) = { state := s.admitted c, result := r, payload := p }) :
    ∃ t, runCommand c i owner s = .next t ∧ Answered s t c r p ∧ KeptBut [] s t :=
  let ⟨t, h1, h2, h3, _⟩ := runCommand_answers (Q := fun _ => True) (s.admitted c) h hi ha ho (LinkKept.refl _)
    (KeptBut.refl _ _) trivial
  ⟨t, h1, h2, h3⟩

/-- Raising a cause changes the attention part alone. -/
theorem KeptBut.raise {named : List Block} {s u : State} (c : Cause) (ha : Block.attention ∈ named)
    (h : KeptBut named s u) : KeptBut named s (u.raise c) := by
  obtain ⟨hb, h1, h2, h3⟩ := h
  refine ⟨fun b => ?_, h1, h2, h3⟩
  cases b
  all_goals first
    | exact Or.inl ha
    | exact hb _

/-- Raising a cause where a condition holds changes the attention part alone. -/
theorem KeptBut.raiseIf {named : List Block} {s u : State} (b : Bool) (c : Cause) (ha : Block.attention ∈ named)
    (h : KeptBut named s u) : KeptBut named s (u.raiseIf b c) := by
  obtain ⟨hb, h1, h2, h3⟩ := h
  refine ⟨fun b => ?_, h1, h2, h3⟩
  cases b
  all_goals first
    | exact Or.inl ha
    | exact hb _

end Sys2Proof.Machine
end

