-- ==== Sys2Proof/Laws/Fence.lean ====
section
/-! SUPPORT. What a fence does to a slot, to the pool and to the causes, and that a frame names the part and its command
as the spec says. -/

namespace Sys2Proof.Machine

/-! ### The parts of a fence -/

/-- With RESET_N released and the timer running, the row FENCE takes the fence. -/
theorem exec_fence {s : State} (hr : s.resetHeld = false) (h : s.timer.running = true) :
    exec .fence s = .next s.takeFence := by
  simp [exec, execFence, unlessHeld, hr, h]

/-- The table after a fence: the slot work, with the horizon judged. -/
theorem takeFence_table (s : State) :
    s.takeFence.table = (s.table.afterWork s.fenceSnapshot.slotWorks).judgeHorizon s.position.travel
      (s.position.rp / 256) := rfl

/-- The link side after a fence: the causes it raises, each where its condition holds. -/
theorem takeFence_link (s : State) :
    s.takeFence.link = ((((s.link.raiseIf (s.fenceSnapshot.slotWorks.any SlotWork.retired) .retired).raiseIf
      (s.fenceSnapshot.slotWorks.any SlotWork.faded) .fadeDone).raiseIf
      (s.takeFence.table.horizonShort && !s.table.horizonShort) .horizonShort).raiseIf
      s.poll.pass.isSome .overrun).raiseIf s.poll.standby.isSome .swapped := rfl

/-- Whether a cause is set once another has been raised where a condition holds. -/
theorem isSet_raiseIf (l : LinkPort) (b : Bool) (c d : Cause) :
    (l.raiseIf b c).isSet d = (l.isSet d || (b && decide (c = d))) := by
  cases b
  · simp
  · simp [LinkPort.raise, LinkPort.isSet]
    cases c <;> cases d <;> simp [Cause.bit, bitWord]

/-- Raising a cause touches its own bit alone. -/
theorem causes_raiseIf (l : LinkPort) (b : Bool) (c : Cause) (n : Nat) (h : n ≠ c.bit) :
    (l.raiseIf b c).causes.getLsbD n = l.causes.getLsbD n := by
  cases b
  · rfl
  · have : (bitWord c.bit).getLsbD n = false := by
      simp [bitWord, BitVec.getLsbD_shiftLeft, BitVec.getLsbD_one]; omega
    simp [LinkPort.raise, this]

/-- A fence touches no other causes. -/
theorem takeFence_causes (s : State) (n : Nat)
    (h : ∀ c ∈ [Cause.overrun, .swapped, .retired, .fadeDone, .horizonShort], n ≠ c.bit) :
    s.takeFence.link.causes.getLsbD n = s.link.causes.getLsbD n := by
  rw [takeFence_link]
  simp only [List.mem_cons, List.not_mem_nil, or_false, forall_eq_or_imp, forall_eq] at h
  rw [causes_raiseIf _ _ _ _ h.2.1, causes_raiseIf _ _ _ _ h.1, causes_raiseIf _ _ _ _ h.2.2.2.2,
    causes_raiseIf _ _ _ _ h.2.2.2.1, causes_raiseIf _ _ _ _ h.2.2.1]

/-- A fence clears no cause. -/
theorem takeFence_isSet (s : State) (c : Cause) (h : s.link.isSet c = true) : s.takeFence.link.isSet c = true := by
  rw [takeFence_link]
  simp only [isSet_raiseIf, h, Bool.true_or]

/-- The position test of R73 finds a record under a car, wholly passed, or neither. -/
theorem positionTest_iff (s : State) (lead : Nat) (r : Record) :
    (positionTest s.position.travel (s.carPositions lead) (s.rearPosition lead) r = .inside ↔ s.carIn lead r)
      ∧ (positionTest s.position.travel (s.carPositions lead) (s.rearPosition lead) r = .behind ↔ s.allPast lead r)
      ∧ (positionTest s.position.travel (s.carPositions lead) (s.rearPosition lead) r = .clear ↔
          ¬ s.carIn lead r ∧ ¬ s.allPast lead r) := by
  have h1 : (s.carPositions lead).any r.covers = true ↔ s.carIn lead r := by
    simp [State.carIn, Record.covers]
  have h2 : s.allPast lead r ↔
      ¬ s.carIn lead r ∧ (s.rearPosition lead).any (r.behind s.position.travel) = true := by
    unfold State.allPast
    cases s.rearPosition lead <;> cases s.position.travel <;> simp [Record.behind]
  unfold positionTest
  rw [h2, ← h1]
  by_cases a : (s.carPositions lead).any r.covers = true <;>
    by_cases b : (s.rearPosition lead).any (r.behind s.position.travel) = true <;> simp only [a, b] <;> simp

/-- The slot work of a fence, slot by slot. -/
theorem slotWorks_eq (s : State) (lead : Nat) (hl : lead = s.position.rp / 256) :
    s.fenceSnapshot.slotWorks = s.table.slots.map fun x => x.fence (decide (s.mode.mode = .running))
      (positionTest s.position.travel (s.carPositions lead) (s.rearPosition lead)) lead := by
  subst hl; rfl

/-! ### The points of the pool -/

/-- What a fence does to a slot returns the points that the slot no longer holds. -/
theorem points_fence (x : Slot) (running : Bool) (test : Record → PositionTest) (lead : Nat) :
    (x.fence running test lead).slot.points + (x.fence running test lead).returned = x.points := by
  unfold Slot.fence
  cases hp : x.pending with
  | image r =>
    simp only [Slot.publication]
    cases test r <;> simp [Slot.points, Slot.publish, hp, Slot.pendingImage, imagePoints, Slot.freed] <;> omega
  | withdrawal =>
    cases hl : x.live with
    | none => simp [SlotWork.kept]
    | some r =>
      simp only [Slot.withdrawn]
      cases test r <;> cases running <;>
        simp [Slot.points, hp, hl, Slot.pendingImage, imagePoints, Slot.freed, SlotWork.freed]
  | none =>
    cases hl : x.live with
    | none => simp [SlotWork.kept]
    | some r =>
      cases hf : x.fade with
      | none =>
        simp only [Slot.judge]
        cases test r <;>
          simp [Slot.points, hp, hl, Slot.pendingImage, imagePoints, Slot.freed, SlotWork.freed, SlotWork.kept]
      | some n =>
        simp only [Slot.fadeStep]
        cases test r <;>
          simp [Slot.points, hp, hl, Slot.pendingImage, imagePoints, Slot.freed, SlotWork.freed, SlotWork.kept]
        all_goals split <;> simp_all

/-- Work that returns the points each slot no longer holds keeps the pool's sum. -/
theorem heldPoints_works (f : Slot → SlotWork) (h : ∀ x, (f x).slot.points + (f x).returned = x.points) :
    ∀ l : List Slot, ((l.map f).map SlotWork.returned).sum + heldPoints ((l.map f).map SlotWork.slot) = heldPoints l
  | [] => rfl
  | x :: xs => by
    have := heldPoints_works f h xs
    have := h x
    simp [heldPoints] at *; omega

/-! ### Frames -/

/-- A byte that is no command's code. -/
theorem ofByte_none (b : Byte) (h : ∀ c : CommandCode, c.byte ≠ b) : CommandCode.ofByte b = none := by
  unfold CommandCode.ofByte
  rw [List.find?_eq_none]
  intro c _; simp [h c]

/-- A command's code names that command. -/
theorem ofByte_byte (c : CommandCode) : CommandCode.ofByte c.byte = some c := by cases c <;> decide

/-- The first byte of a frame names the part where it is four times LADDR (R164). -/
theorem namesPart_iff (t : Straps) (content : List Byte) :
    namesPart t content = true ↔ ∃ a, content.head? = some a ∧ a.toNat = 4 * t.laddr.toNat := by
  cases content with
  | nil => simp [namesPart]
  | cons a l =>
    simp only [namesPart, addressByte, decide_eq_true_eq, ← BitVec.toNat_inj]
    have h := t.laddr.isLt
    have : (t.laddr.zeroExtend 8 <<< 2).toNat = 4 * t.laddr.toNat := by
      simp [Nat.shiftLeft_eq]; omega
    rw [this]; simp [eq_comm]

end Sys2Proof.Machine
end

