-- ==== Sys2Proof/Laws/Frames.lean ====
section
/-! SUPPORT. The bits and bytes of the frames the part sends: flags byte, status byte, values, address byte and
check. -/

namespace Sys2Proof.Machine

/-- The bits of the flags byte of a setpoint frame (10.5). -/
theorem flagsByte_bits (f : FrameFlags) : f.byte.getLsbD 0 = f.holding ∧ f.byte.getLsbD 1 = f.doubt
    ∧ f.byte.getLsbD 2 = f.limited ∧ f.byte.getLsbD 3 = f.cutOut ∧ f.byte.getLsbD 4 = f.changed
    ∧ f.byte.getLsbD 5 = f.fixed ∧ f.byte.getLsbD 6 = f.beyond ∧ f.byte.getLsbD 7 = false := by
  obtain ⟨a, b, c, d, e, g, h⟩ := f
  revert a b c d e g h
  decide

/-- The bits of the status byte of an answer (10.5). -/
theorem statusByte_bits (t : AnswerStatus) : t.byte.getLsbD 0 = t.frameOk ∧ t.byte.getLsbD 1 = t.checkOk
    ∧ t.byte.getLsbD 2 = t.aborted ∧ t.byte.getLsbD 3 = t.tooLong ∧ ∀ n, 4 ≤ n → t.byte.getLsbD n = false := by
  obtain ⟨a, b, c, d⟩ := t
  have h : ∀ a b c d : Bool, ∀ n : Fin 8, 4 ≤ n.val → (AnswerStatus.byte ⟨a, b, c, d⟩).getLsbD n = false := by decide
  refine ⟨?_, ?_, ?_, ?_, fun n hn => ?_⟩
  · revert a b c d; decide
  · revert a b c d; decide
  · revert a b c d; decide
  · revert a b c d; decide
  · by_cases h8 : n < 8
    · exact h a b c d ⟨n, h8⟩ hn
    · exact BitVec.getLsbD_of_ge _ _ (by omega)

/-- The word that its two bytes carry, low byte first (R173). -/
theorem word_of_bytes (w : Word) :
    BitVec.ofNat 16 ((w.truncate 8 : Byte).toNat + 256 * ((w >>> 8).truncate 8 : Byte).toNat) = w := by
  apply BitVec.eq_of_toNat_eq
  have := w.isLt
  simp [Nat.shiftRight_eq_div_pow]
  omega

/-- A lean within its bound passes through its field. -/
theorem signed_word (v : Int) (h : leanOk v) : (BitVec.ofInt 16 v).toInt = v := by
  obtain ⟨h1, h2⟩ := h
  rw [BitVec.toInt_ofInt]
  exact Int.bmod_eq_of_le (by omega) (by omega)

/-- The bytes of a list of signed values: two for each, in their order. -/
theorem signedBytes_flatMap (values : List Int) :
    (values.flatMap signedBytes).length = 2 * values.length
      ∧ ∀ j v, values[j]? = some v → (values.flatMap signedBytes)[2 * j]? = some ((BitVec.ofInt 16 v).truncate 8)
        ∧ (values.flatMap signedBytes)[2 * j + 1]? = some (((BitVec.ofInt 16 v) >>> 8).truncate 8) := by
  induction values with
  | nil => exact ⟨rfl, fun j v h => by simp at h⟩
  | cons a l ih =>
    refine ⟨?_, fun j v h => ?_⟩
    · rw [List.flatMap_cons, List.length_append, ih.1]; simp [signedBytes, wordBytes]; omega
    · cases j with
      | zero => simp at h; subst h; exact ⟨rfl, rfl⟩
      | succ j =>
        have := ih.2 j v (by simpa using h)
        exact this

/-- An answer payload has at most 60 bytes (R167). -/
theorem payload_length (p : AnswerPayload) : p.bytes.length ≤ 60 := by
  cases p <;> first
    | exact List.length_take_le _ _
    | exact Nat.zero_le _
    | simp [AnswerPayload.bytes, AttentionReport.bytes, wordBytes, countBytes]

/-- The address byte of an answer: LADDR and the answer bit (R164, R167). -/
theorem answerAddress (t : Straps) : (addressByte t ||| 0x02#8).toNat = 4 * t.laddr.toNat + 2 := by
  have h : ∀ l : BitVec 6, (l.zeroExtend 8 <<< 2 ||| 0x02#8).toNat = 4 * l.toNat + 2 := by decide
  exact h _

/-- The check over bytes and one more (R163). -/
theorem checkOf_append (bytes : List Byte) (b : Byte) : checkOf (bytes ++ [b]) = checkByte (checkOf bytes) b := by
  simp only [checkOf, List.foldl_append, List.foldl_cons, List.foldl_nil]

end Sys2Proof.Machine
end

