-- ==== Sys2Proof/Laws/Invariants.lean ====
section
/-! SUPPORT. How a property passes through a step: what it must be kept by, one field for each change of state that a row
can make, and the same for a property of the Curve Table alone. -/

namespace Sys2Proof.Machine

/-- A property that taking a row from the queue and exec keep is kept by a step. -/
theorem step_keeps {P : State → Prop} (hp : ∀ u x, P u → P (u.setPending x))
    (he : ∀ i u t, P u → exec i u = .next t → P t) : ∀ s t, P s → step s = .next t → P t := by
  intro s t h hs
  unfold step at hs
  split at hs
  · cases hs; exact h
  · exact he _ _ _ (hp _ _ h) hs

/-- What a property must be kept by, beside a change of the port, for exec to keep it: one field for each change of state
that a row can make, with what its row checks first. -/
structure Keeps (P : State → Prop) : Prop where
  start : ∀ u, P u → u.mode.mode = .config → P (actStart () u).state
  run : ∀ u, P u → u.mode.mode ≠ .config → P (actRun () u).state
  stby : ∀ u, P u → u.mode.mode ≠ .config → P (actStby () u).state
  hold : ∀ u d, P u → u.mode.mode = .running → P (actHold d u).state
  stop : ∀ u, P u → u.mode.mode ≠ .running → P (actStop () u).state
  reset : ∀ u, P u → P (actReset () u).state
  setcal : ∀ u n, P u → P (actSetcal n u).state
  setpos : ∀ u p, P u → P (actSetpos p u).state
  setfix : ∀ u p, P u → P (actSetfix p u).state
  openr : ∀ u p, P u → u.mode.mode ≠ .config → P (actOpenr p u).state
  putp : ∀ u p, P u → u.mode.mode ≠ .config → P (actWrite (fun _ => 0) p u).state
  contp : ∀ u p, P u → u.mode.mode ≠ .config → P (actWrite Assembly.writePosition p u).state
  closer : ∀ u, P u → u.mode.mode ≠ .config → P (actCloser () u).state
  abandr : ∀ u, P u → u.mode.mode ≠ .config → P (actAbandr () u).state
  wdraw : ∀ u p, P u → u.mode.mode ≠ .config → P (actWdraw p u).state
  wdsect : ∀ u p, P u → u.mode.mode ≠ .config → P (actWdsect p u).state
  clrtab : ∀ u, P u → u.mode.mode ≠ .config → P (actClrtab () u).state
  rdrec : ∀ u p, P u → P (actRdrec p u).state
  rdslot : ∀ u p, P u → P (actRdslot p u).state
  tsum : ∀ u, P u → P (actTsum () u).state
  cover : ∀ u p, P u → u.mode.mode ≠ .config → P (actCover p u).state
  setcyc : ∀ u p, P u → P (actSetcyc p u).state
  setcomp : ∀ u p, P u → u.mode.mode = .config → P (actSetcomp p u).state
  settrav : ∀ u p, P u → u.mode.mode = .config → P (actSettrav p u).state
  setlim : ∀ u p, P u → u.mode.mode ≠ .running → P (actSetlim p u).state
  setbus : ∀ u p, P u → P (actSetbus p u).state
  ldplan : ∀ u p, P u → P (actLdplan p u).state
  canplan : ∀ u, P u → P (actCanplan () u).state
  canstby : ∀ u, P u → P (actCanstby () u).state
  xchg : ∀ u p, P u → u.mode.mode ≠ .config → P (actXchg p u).state
  canxchg : ∀ u, P u → P (actCanxchg () u).state
  rdxchg : ∀ u, P u → P (actRdxchg () u).state
  restore : ∀ u p, P u → u.mode.mode ≠ .config → P (actRestore p u).state
  pulse : ∀ u d, P u → P (u.movePulse d).checkInterval.checkHold
  interval : ∀ u, P u → P u.checkInterval
  holdx : ∀ u, P u → P u.checkHold
  strobe : ∀ u, P u → P u.strobe
  mbyte : ∀ u b ok, P u → P (u.markerByte b ok)
  cut : ∀ u, P u → P u.discardFailed
  fence : ∀ u, P u → u.timer.running = true → P u.takeFence
  serve : ∀ u k e car p, P u → u.servable = some (k, e, car, p) → P (u.serveEntry k e car.address p)
  inquiry : ∀ u k car, P u → u.startableRequest = some (k, car) → P (u.startInquiry k car.address)
  sent : ∀ u, P u → u.poll.phase = .sending → P (u.setPoll { u.poll with phase := .awaiting })
  sbit : ∀ u, P u → u.poll.phase = .awaiting → P (u.setPoll { u.poll with phase := .receiving })
  rbyte : ∀ u e b ok, P u → u.poll.phase = .receiving → u.poll.exchange = some e → e.lastComing = false →
    P (u.setPoll { u.poll with exchange := some (e.add b ok) })
  outcome : ∀ u e o r, P u → (∃ e', u.poll.exchange = some e' ∧ e'.origin = e.origin ∧ e'.car = e.car) →
    P (u.takeOutcome e o r)
  settled : ∀ u, P u → u.poll.phase = .settling → P (u.setPoll { u.poll with phase := .idle })
  answered : ∀ u, P u → P u.endAnswer
  soft : ∀ u, P u → P u.softReset
  pin : ∀ u st, P u → P ((u.powerOnValues st).setResetHeld true)
  pow : ∀ u st, P u → P (u.powerOnValues st)
  rel : ∀ u, P u → P (u.setResetHeld false)

/-- What the port does with a frame it has judged keeps a property that the port does not bear on. -/
theorem receive_keeps {P : State → Prop} (hl : ∀ u l, P u → P (u.setLink l)) (u : State) (hu : P u) (j c) :
    P (u.receive j c) := by
  unfold State.receive
  split
  · exact hu
  · split <;> exact hl _ _ hu
  · split
    · exact hl _ _ hu
    · unfold State.dealFrame
      simp only
      split
      · exact hl _ _ (hl _ _ hu)
      · split
        · exact hl _ _ hu
        · exact hl _ _ (hl _ _ hu)

/-- exec keeps a property that each change of state keeps and that the port does not bear on. -/
theorem exec_keeps {P : State → Prop} (k : Keeps P) (hl : ∀ u l, P u → P (u.setLink l)) :
    ∀ i u t, P u → exec i u = .next t → P t := by
  have cmd : ∀ {α} (c : CommandCode) (f : α → State → CommandResult),
      (∀ a u, P u → c.available u.mode.mode = true → P (f a u).state) →
      ∀ {i : Instr} (p : Payload α) u t, P u → runCommand c i (withParameters p f) u = .next t → P t := by
    intro α c f hf i p u t hu h
    refine runCommand_keeps hl (fun v hv ha => ?_) hu h
    cases p with
    | exact a => exact hf a v hv ha
    | wrongLength => exact hv
  have cmd' : ∀ (c : CommandCode) (f : State → CommandResult),
      (∀ u, P u → c.available u.mode.mode = true → P (f u).state) →
      ∀ {i : Instr} u t, P u → runCommand c i f u = .next t → P t := by
    intro c f hf i u t hu h
    exact runCommand_keeps hl (fun v hv ha => hf v hv ha) hu h
  have rec1 : ∀ u r j c, P u → P ((u.setReceiver r).receive j c) := fun u r j c hu =>
    receive_keeps hl _ (hl _ _ hu) _ _
  have rep : ∀ u e, P u → u.poll.receivingExchange = some e →
      u.poll.phase = .receiving ∧ u.poll.exchange = some e := by
    intro u e _ h; unfold PollEngine.receivingExchange at h
    split at h <;> simp_all
  intro i u t hu h
  cases i
  case start p => exact cmd .start _ (fun a u hu ha => k.start u hu (of_decide_eq_true ha)) p u t hu h
  case run p => exact cmd .run _ (fun a u hu ha => k.run u hu (of_decide_eq_true ha)) p u t hu h
  case stby p => exact cmd .stby _ (fun a u hu ha => k.stby u hu (of_decide_eq_true ha)) p u t hu h
  case hold p => exact cmd .hold _ (fun a u hu ha => k.hold u a hu (of_decide_eq_true ha)) p u t hu h
  case stop p => exact cmd .stop _ (fun a u hu ha => k.stop u hu (of_decide_eq_true ha)) p u t hu h
  case reset p => exact cmd .reset _ (fun a u hu ha => k.reset u hu) p u t hu h
  case rdstat p => exact cmd .rdstat _ (fun a u hu ha => hu) p u t hu h
  case setcal p => exact cmd .setcal _ (fun a u hu ha => k.setcal u a hu) p u t hu h
  case setpos p => exact cmd .setpos _ (fun a u hu ha => k.setpos u a hu) p u t hu h
  case setfix p => exact cmd .setfix _ (fun a u hu ha => k.setfix u a hu) p u t hu h
  case rdpos p => exact cmd .rdpos _ (fun a u hu ha => hu) p u t hu h
  case openr p => exact cmd .openr _ (fun a u hu ha => k.openr u a hu (of_decide_eq_true ha)) p u t hu h
  case putp p => exact cmd .putp _ (fun a u hu ha => k.putp u a hu (of_decide_eq_true ha)) p u t hu h
  case contp p => exact cmd .contp _ (fun a u hu ha => k.contp u a hu (of_decide_eq_true ha)) p u t hu h
  case closer p => exact cmd .closer _ (fun a u hu ha => k.closer u hu (of_decide_eq_true ha)) p u t hu h
  case abandr p => exact cmd .abandr _ (fun a u hu ha => k.abandr u hu (of_decide_eq_true ha)) p u t hu h
  case wdraw p => exact cmd .wdraw _ (fun a u hu ha => k.wdraw u a hu (of_decide_eq_true ha)) p u t hu h
  case wdsect p => exact cmd .wdsect _ (fun a u hu ha => k.wdsect u a hu (of_decide_eq_true ha)) p u t hu h
  case clrtab p =>
    exact cmd .clrtab _ (fun a u hu ha => k.clrtab u hu (fun hm => by simp [CommandCode.available, hm] at ha)) p u t hu h
  case rdrec p => exact cmd .rdrec _ (fun a u hu ha => k.rdrec u a hu) p u t hu h
  case rdslot p => exact cmd .rdslot _ (fun a u hu ha => k.rdslot u a hu) p u t hu h
  case findat p => exact cmd .findat _ (fun a u hu ha => hu) p u t hu h
  case tsum p => exact cmd .tsum _ (fun a u hu ha => k.tsum u hu) p u t hu h
  case cover p => exact cmd .cover _ (fun a u hu ha => k.cover u a hu (of_decide_eq_true ha)) p u t hu h
  case setcyc p => exact cmd .setcyc _ (fun a u hu ha => k.setcyc u a hu) p u t hu h
  case setcomp p => exact cmd' .setcomp _ (fun u hu ha => k.setcomp u p hu (of_decide_eq_true ha)) u t hu h
  case settrav p => exact cmd .settrav _ (fun a u hu ha => k.settrav u a hu (of_decide_eq_true ha)) p u t hu h
  case rdcomp p => exact cmd .rdcomp _ (fun a u hu ha => hu) p u t hu h
  case setlim p => exact cmd .setlim _ (fun a u hu ha => k.setlim u a hu (of_decide_eq_true ha)) p u t hu h
  case rdcar p => exact cmd .rdcar _ (fun a u hu ha => by unfold actRdcar; split <;> exact hu) p u t hu h
  case setbus p => exact cmd .setbus _ (fun a u hu ha => k.setbus u a hu) p u t hu h
  case ldplan p => exact cmd' .ldplan _ (fun u hu ha => k.ldplan u p hu) u t hu h
  case canplan p => exact cmd .canplan _ (fun a u hu ha => k.canplan u hu) p u t hu h
  case canstby p => exact cmd .canstby _ (fun a u hu ha => k.canstby u hu) p u t hu h
  case xchg p => exact cmd .xchg _ (fun a u hu ha => k.xchg u a hu (of_decide_eq_true ha)) p u t hu h
  case canxchg p => exact cmd .canxchg _ (fun a u hu ha => k.canxchg u hu) p u t hu h
  case rdxchg p => exact cmd .rdxchg _ (fun a u hu ha => k.rdxchg u hu) p u t hu h
  case restore p => exact cmd .restore _ (fun a u hu ha => k.restore u a hu (of_decide_eq_true ha)) p u t hu h
  case rdatt p => exact cmd .rdatt _ (fun a u hu ha => hl u _ hu) p u t hu h
  case setmask p =>
    exact cmd .setmask _ (fun a u hu ha => by unfold actSetmask; split; exact hu; exact hl _ _ hu) p u t hu h
  case odometerPulse d => exact unlessHeld_keeps hu (k.pulse u d hu) h
  case fixIntervalExpiry => exact unlessHeld_keeps hu (k.interval u hu) h
  case holdExpiry => exact unlessHeld_keeps hu (k.holdx u hu) h
  case markerStrobe => exact unlessHeld_keeps hu (k.strobe u hu) h
  case markerByte b ok => exact unlessHeld_keeps hu (k.mbyte u b ok hu) h
  case markerMessage b ok =>
    refine unlessHeld_keeps hu ?_ h
    cases hm : u.position.reception with
    | none => exact hu
    | some m =>
      simp only
      split
      · have := k.mbyte u b ok hu
        simp only [State.markerByte, hm] at this
        rw [if_pos (by assumption)] at this
        exact this
      · exact hu
  case markerMessageCutShort => exact unlessHeld_keeps hu (by split; exact k.cut u hu; exact hu) h
  case fence => exact unlessHeld_keeps hu (by split; exact k.fence u hu (by assumption); exact hu) h
  case planEntryServed => exact unlessHeld_keeps hu (by split; exact hu; exact k.serve _ _ _ _ _ hu (by assumption)) h
  case manualExchangeStart => exact unlessHeld_keeps hu (by split; exact hu; exact k.inquiry _ _ _ hu (by assumption)) h
  case frameSent => exact unlessHeld_keeps hu (by split; exact k.sent _ hu (by assumption); exact hu) h
  case replyStartBit => exact unlessHeld_keeps hu (by split; exact k.sbit _ hu (by assumption); exact hu) h
  case settlingDone => exact unlessHeld_keeps hu (by split; exact k.settled _ hu (by assumption); exact hu) h
  case replyByteTaken b ok =>
    refine unlessHeld_keeps hu ?_ h
    split
    · exact hu
    · rename_i e he
      obtain ⟨h1, h2⟩ := rep _ _ hu he
      unfold State.replyByte
      split
      · exact k.outcome _ _ _ _ hu ⟨e, h2, rfl, rfl⟩
      · exact k.rbyte _ _ _ _ hu h1 h2 (Bool.eq_false_iff.2 ‹_›)
  case replyReceived b ok =>
    refine unlessHeld_keeps hu ?_ h
    split
    · exact hu
    · rename_i e he
      obtain ⟨h1, h2⟩ := rep _ _ hu he
      split
      · exact k.outcome _ _ _ _ hu ⟨e, h2, rfl, rfl⟩
      · exact hu
  case replyCutShort =>
    refine unlessHeld_keeps hu ?_ h
    split
    · exact hu
    · rename_i e he
      obtain ⟨h1, h2⟩ := rep _ _ hu he
      split
      · exact hu
      · exact k.outcome _ _ _ _ hu ⟨e, h2, rfl, rfl⟩
  case replyTimeout =>
    refine unlessHeld_keeps hu ?_ h
    split
    · exact hu
    · rename_i e he
      have h2 : u.poll.exchange = some e := by unfold PollEngine.awaitingExchange at he; split at he <;> simp_all
      exact k.outcome _ _ _ _ hu ⟨e, h2, rfl, rfl⟩
  case linkCharacter c ok =>
    refine unlessHeld_keeps hu ?_ h
    unfold State.linkCharacter
    split
    · split
      · exact hl _ _ hu
      · exact hu
    · split
      · exact rec1 _ _ _ _ hu
      · split <;> exact hl _ _ hu
    · split
      · exact rec1 _ _ _ _ hu
      · exact hl _ _ hu
  case frameClosed ok => exact unlessHeld_keeps hu (by split; exact rec1 _ _ _ _ hu; exact hu) h
  case frameAborted ok => exact unlessHeld_keeps hu (by split; exact rec1 _ _ _ _ hu; exact hu) h
  case answerSent => exact unlessHeld_keeps hu (by split; exact k.answered _ hu; exact hu) h
  case softwareReset => exact unlessHeld_keeps hu (by split; exact k.soft _ hu; exact hu) h
  case pinReset st => cases h; exact k.pin _ _ hu
  case powerOn st => cases h; exact k.pow _ _ hu
  case resetNRelease => cases h; exact k.rel _ hu

/-! ### What the shared operations leave -/

section
variable (s : State) (e : Exchange) (o : ExchangeOutcome) (r : Option Reply)

theorem checkInterval_table : s.checkInterval.table = s.table := by unfold State.checkInterval; split <;> rfl
theorem checkInterval_timer : s.checkInterval.timer = s.timer := by unfold State.checkInterval; split <;> rfl
theorem checkInterval_demand : s.checkInterval.demand = s.demand := by unfold State.checkInterval; split <;> rfl
theorem checkInterval_poll : s.checkInterval.poll = s.poll := by unfold State.checkInterval; split <;> rfl
theorem checkInterval_health : s.checkInterval.health = s.health := by unfold State.checkInterval; split <;> rfl
theorem checkInterval_mode : s.checkInterval.mode = s.mode := by unfold State.checkInterval; split <;> rfl
theorem checkHold_position : s.checkHold.position = s.position := by unfold State.checkHold; split <;> rfl
theorem checkHold_table : s.checkHold.table = s.table := by unfold State.checkHold; split <;> rfl
theorem checkHold_timer : s.checkHold.timer = s.timer := by unfold State.checkHold; split <;> rfl
theorem checkHold_demand : s.checkHold.demand = s.demand := by unfold State.checkHold; split <;> rfl
theorem checkHold_poll : s.checkHold.poll = s.poll := by unfold State.checkHold; split <;> rfl
theorem checkHold_health : s.checkHold.health = s.health := by unfold State.checkHold; split <;> rfl
theorem takeOutcome_table : (s.takeOutcome e o r).table = s.table := by
  unfold State.takeOutcome State.applyOutcome
  simp only
  split
  · rfl
  · split <;> simp [State.writeResult, State.countOutcome, State.putHealth]
theorem takeOutcome_position : (s.takeOutcome e o r).position = s.position := by
  unfold State.takeOutcome State.applyOutcome
  simp only
  split
  · rfl
  · split <;> simp [State.writeResult, State.countOutcome, State.putHealth]
theorem takeOutcome_mode : (s.takeOutcome e o r).mode = s.mode := by
  unfold State.takeOutcome State.applyOutcome
  simp only
  split
  · rfl
  · split <;> simp [State.writeResult, State.countOutcome, State.putHealth]
theorem takeOutcome_timer : (s.takeOutcome e o r).timer = s.timer := by
  unfold State.takeOutcome State.applyOutcome
  simp only
  split
  · rfl
  · split <;> simp [State.writeResult, State.countOutcome, State.putHealth]

end

/-- What a property of the Curve Table must be kept by: one field for each change of the table that a row can make. -/
structure KeepsTable (T : CurveTable → Prop) : Prop where
  stop : ∀ t, T t → T t.stopped
  openr : ∀ t (f : OpenFields) a, T t → t.assembly = none → f.assembly = some a → T { t with assembly := some a }
  write : ∀ t a place (vs : List Word), T t → t.assembly = some a → (place = 0 ∨ place = a.writePosition) →
    T { t with assembly := some (a.write place vs) }
  closer : ∀ (u : State) a i, T u.table → u.table.assembly = some a → a.closeRefusal u = none →
    a.target u.table = some i →
    T { u.table.putSlot i ((u.table.slot i).stage a.record) with poolFree := a.freeAfter u.table, assembly := none }
  abandr : ∀ t, T t → T { t with assembly := none }
  wdraw : ∀ t key i force, T t → t.slotOfKey key = some i → T (t.applyFinding i (t.findWithdraw i force))
  wdsect : ∀ t f, T t → T (t.applySections (t.sectionFindings f))
  clrtab : ∀ t, T t → T t.cleared
  overw : ∀ t i r, T t → (t.slot i).returnedImage = some r → T (t.clearOverwritten i)
  tsum : ∀ t, T t → T t.clearBitmap
  cover : ∀ t p, T t → T { t with coverage := some p }
  horizon : ∀ t n, T t → T { t with horizonSetting := n }
  confirm : ∀ t id i p, T t → t.slotOfMarker id = some i → T (t.putSlot i ((t.slot i).confirm p))
  fence : ∀ u : State, T u.table →
    T ((u.table.afterWork u.slotWorks).judgeHorizon u.position.travel u.position.snapshot.lead)
  empty : T .empty

/-- A property of the Curve Table that each change of the table keeps is kept by each change of state. -/
theorem KeepsTable.keeps {T : CurveTable → Prop} (k : KeepsTable T) : Keeps (fun s => T s.table) where
  start u h _ := by unfold actStart; split <;> exact h
  run u h _ := by unfold actRun; split <;> exact h
  stby u h _ := by unfold actStby; split <;> exact h
  hold u d h _ := by unfold actHold; split <;> exact h
  stop u h _ := by unfold actStop; split; exact h; exact k.stop _ h
  reset u h := h
  setcal u n h := by unfold actSetcal; split <;> exact h
  setpos u n h := h
  setfix u n h := by
    unfold actSetfix
    split
    · exact h
    · simp only [CommandResult.done]; rw [checkInterval_table]; exact h
  openr u f h _ := by
    unfold actOpenr
    split
    · exact h
    · exact h
    · exact k.openr _ f _ h (by assumption) (by assumption)
  putp u vs h _ := by
    unfold actWrite
    split
    · exact h
    · split
      · exact h
      · exact k.write _ _ _ _ h (by assumption) (Or.inl rfl)
  contp u vs h _ := by
    unfold actWrite
    split
    · exact h
    · split
      · exact h
      · exact k.write _ _ _ _ h (by assumption) (Or.inr rfl)
  closer u h _ := by
    unfold actCloser
    split
    · exact h
    · split
      · exact h
      · exact h
      · exact k.closer _ _ _ h (by assumption) (by assumption) (by assumption)
  abandr u h _ := by unfold actAbandr; split; exact h; exact k.abandr _ h
  wdraw u f h _ := by
    unfold actWdraw
    split
    · exact h
    · split
      · exact h
      · exact k.wdraw _ _ _ _ h (by assumption)
  wdsect u f h _ := by unfold actWdsect; split; exact h; exact k.wdsect _ _ h
  clrtab u h _ := k.clrtab _ h
  rdrec u f h := by
    unfold actRdrec State.readSlot
    split
    · exact h
    · split
      · exact h
      · split
        · exact h
        · exact k.overw _ _ _ h (by assumption)
  rdslot u f h := by
    unfold actRdslot State.readSlot
    split
    · exact h
    · split
      · exact h
      · split
        · exact h
        · exact k.overw _ _ _ h (by assumption)
  tsum u h := k.tsum _ h
  cover u p h _ := by unfold actCover; split; exact k.cover _ _ h; exact h
  setcyc u f h := by unfold actSetcyc; split; exact h; exact k.horizon _ _ h
  setcomp u p h _ := by unfold actSetcomp; split <;> exact h
  settrav u p h _ := by unfold actSettrav; split <;> exact h
  setlim u p h _ := by unfold actSetlim; split <;> exact h
  setbus u p h := by unfold actSetbus; split; exact h; split <;> exact h
  ldplan u p h := by unfold actLdplan; split <;> exact h
  canplan u h := by unfold actCanplan; split <;> exact h
  canstby u h := by unfold actCanstby; split <;> exact h
  xchg u p h _ := by unfold actXchg; split; exact h; exact h; split <;> exact h
  canxchg u h := by unfold actCanxchg; split <;> exact h
  rdxchg u h := by unfold actRdxchg; split <;> exact h
  restore u p h _ := by unfold actRestore; split; exact h; split <;> exact h
  pulse u d h := by rw [checkHold_table, checkInterval_table]; exact h
  interval u h := by rw [checkInterval_table]; exact h
  holdx u h := by rw [checkHold_table]; exact h
  strobe u h := h
  mbyte u b ok h := by
    unfold State.markerByte State.takeMessage State.judgeFix
    split
    · split <;> exact h
    · split
      · split
        · split
          · exact h
          · split
            · exact h
            · split
              · exact k.confirm _ _ _ _ h (by assumption)
              · exact h
        · exact h
      · exact h
  cut u h := h
  fence u h _ := k.fence u.fenceSnapshot h
  serve u p e c q h _ := h
  inquiry u p c h _ := h
  sent u h _ := h
  sbit u h _ := h
  rbyte u e b ok h _ _ _ := h
  outcome u e o r h _ := by rw [takeOutcome_table]; exact h
  settled u h _ := h
  answered u h := h
  soft u h := k.empty
  pin u st h := k.empty
  pow u st h := k.empty
  rel u h := h

/-- A step keeps a property of the Curve Table that each change of the table keeps. -/
theorem step_keeps_table {T : CurveTable → Prop} (k : KeepsTable T) :
    ∀ s t : State, T s.table → step s = .next t → T t.table :=
  step_keeps (P := fun s => T s.table) (fun _ _ h => h) (exec_keeps k.keeps fun _ _ h => h)

end Sys2Proof.Machine
end

