-- ==== Sys2Proof/Laws/Payloads.lean ====
section
/-! SUPPORT. That the payloads of SETCOMP and LDPLAN are read as they are written, and which car or entry their checks
name. -/

namespace Sys2Proof.Machine

/-! ### The bytes of a composition -/

/-- The word that two bytes of a field spell. -/
theorem wordAt_bytes (w : Word) (l : List Byte) : wordAt (wordBytes w ++ l) 0 = w := by
  simp only [wordAt, wordBytes, byteAt, ofBytes, List.cons_append, List.getD_cons_zero, List.getD_cons_succ]
  apply BitVec.eq_of_getLsbD_eq; intro i hi
  rw [BitVec.getLsbD_append]
  split
  · simp [*]
  · rw [BitVec.truncate_eq_setWidth, BitVec.getLsbD_setWidth]
    have e : (w >>> 8).getLsbD (i - 8) = w.getLsbD (8 + (i - 8)) := BitVec.getLsbD_ushiftRight ..
    rw [e, show 8 + (i - 8) = i by omega]; simp; omega

/-- A word within a list of bytes. -/
theorem wordAt_drop (l : List Byte) (n : Nat) : wordAt l n = wordAt (l.drop n) 0 := by
  simp [wordAt, byteAt, List.getD]

/-- The three bytes of a car in a SETCOMP payload (10.5). -/
def carBytes (car : Car) : List Byte := BitVec.ofNat 8 car.address :: wordBytes (BitVec.ofNat 16 car.offset)
/-- A car takes three bytes. -/
theorem carBytes_len (c : Car) : (carBytes c).length = 3 := rfl

/-- The cars of a payload are read as they are written. -/
theorem parseCars_bytes : ∀ (cars : List Car) (rest : List Byte),
    (∀ car ∈ cars, car.address ≤ 255 ∧ car.offset ≤ 65535) →
    parseCars cars.length (cars.flatMap carBytes ++ rest) = cars
  | [], rest, _ => by simp [parseCars]
  | c :: cs, rest, h => by
    have h1 := h c (by simp)
    have ih := parseCars_bytes cs rest (fun x hx => h x (by simp [hx]))
    have e : (c :: cs).flatMap carBytes ++ rest = carBytes c ++ (cs.flatMap carBytes ++ rest) := by simp
    rw [e]
    simp only [parseCars, List.length_cons]
    have : (carBytes c ++ (cs.flatMap carBytes ++ rest)).drop 3 = cs.flatMap carBytes ++ rest := by
      rw [← carBytes_len c, List.drop_left]
    rw [this, ih]
    have hw : wordAt (carBytes c ++ (cs.flatMap carBytes ++ rest)) 1 = BitVec.ofNat 16 c.offset := by
      rw [wordAt_drop]
      simp only [carBytes, List.cons_append, List.drop_succ_cons, List.drop_zero]
      exact wordAt_bytes _ _
    rw [hw]
    have hb : byteAt (carBytes c ++ (cs.flatMap carBytes ++ rest)) 0 = BitVec.ofNat 8 c.address := rfl
    rw [hb]
    simp; rw [Nat.mod_eq_of_lt (by omega), Nat.mod_eq_of_lt (by omega)]

/-- The length of the cars of a payload. -/
theorem carBytes_flatMap_length : ∀ cars : List Car, (cars.flatMap carBytes).length = 3 * cars.length
  | [] => rfl
  | c :: cs => by
    rw [List.flatMap_cons, List.length_append, carBytes_len, carBytes_flatMap_length cs, List.length_cons]; omega

/-- The payload of a composition is read as that composition, and its count checked first. -/
theorem parseComposition_bytes (c : Composition) (h : c.fitsPayload) :
    parseComposition c.bytes =
      if c.cars.length = 0 || c.cars.length > 16 then .error (.count, 0) else checkComposition c := by
  obtain ⟨h1, h2, h3, h4⟩ := h
  have hn : (BitVec.ofNat 8 c.cars.length).toNat = c.cars.length := by simp; omega
  obtain ⟨tail, ht⟩ : ∃ tail, tail = c.cars.flatMap carBytes ++ wordBytes (BitVec.ofNat 16 c.length)
      ++ wordBytes (BitVec.ofNat 16 c.reader) := ⟨_, rfl⟩
  have hb : c.bytes = BitVec.ofNat 8 c.cars.length :: tail := by rw [ht]; rfl
  have hlen : tail.length = 4 + 3 * c.cars.length := by
    rw [ht]; simp only [List.length_append, carBytes_flatMap_length]; simp [wordBytes]; omega
  have e1 : parseCars c.cars.length tail = c.cars := by
    rw [ht, List.append_assoc]; exact parseCars_bytes _ _ h2
  have e2 : wordAt (BitVec.ofNat 8 c.cars.length :: tail) (1 + 3 * c.cars.length) = BitVec.ofNat 16 c.length := by
    rw [wordAt_drop, Nat.add_comm 1, List.drop_succ_cons, ht, List.append_assoc, ← carBytes_flatMap_length,
      List.drop_left]
    exact wordAt_bytes _ _
  have e3 : wordAt (BitVec.ofNat 8 c.cars.length :: tail) (3 + 3 * c.cars.length) = BitVec.ofNat 16 c.reader := by
    rw [wordAt_drop, ht, show 3 + 3 * c.cars.length
        = (c.cars.flatMap carBytes ++ wordBytes (BitVec.ofNat 16 c.length)).length + 1 by
      simp only [List.length_append, carBytes_flatMap_length]; simp [wordBytes]; omega, List.drop_succ_cons,
      List.drop_left]
    simpa using wordAt_bytes (BitVec.ofNat 16 c.reader) []
  rw [hb]
  unfold parseComposition
  simp only [hn, e1, e2, e3]
  rw [if_neg (by simp only [List.length_cons, hlen]; omega)]
  congr 1
  congr 1
  cases c; simp at *; omega

/-! ### The first item that a check finds -/

/-- A check finds no item. -/
theorem firstIndex_none {α : Type} (f : α → Bool) : ∀ (l : List α) (k : Nat),
    firstIndex f k l = none ↔ ∀ x ∈ l, f x = false
  | [], k => by simp [firstIndex]
  | x :: xs, k => by simp only [firstIndex]; cases h : f x <;> simp [h, firstIndex_none f xs]

/-- A check finds the first item it holds of. -/
theorem firstIndex_some {α : Type} (f : α → Bool) : ∀ (l : List α) (k j : Nat) (x : α), l[j]? = some x →
    f x = true → (∀ i y, i < j → l[i]? = some y → f y = false) → firstIndex f k l = some (k + j)
  | [], k, j, x, h, _, _ => by simp at h
  | a :: as, k, 0, x, h, h2, _ => by simp at h; subst h; simp [firstIndex, h2]
  | a :: as, k, j+1, x, h, h2, h3 => by
    have := h3 0 a (by omega) rfl
    simp [firstIndex, this]
    rw [firstIndex_some f as (k + 1) j x (by simpa using h) h2
      (fun i y hi hy => h3 (i + 1) y (by omega) (by simpa using hy))]
    congr 1; omega

/-- Check ADDRESS finds no car. -/
theorem badAddress_none (c : Composition) : (∀ k, 1 ≤ k → ¬ c.badAddress k) ↔
    firstIndex (fun car : Car => car.address = 0 || car.address > 126) 1 c.cars = none := by
  rw [firstIndex_none]
  constructor
  · intro h x hx
    obtain ⟨j, hj⟩ := List.getElem?_of_mem hx
    have := h (j+1) (by omega)
    simp [Composition.badAddress, hj] at this ⊢; omega
  · intro h k hk ⟨car, hc, hb⟩
    have := h car (List.mem_of_getElem? hc)
    simp at this; omega

/-- Check ADDRESS finds the lowest car it holds of. -/
theorem badAddress_some (c : Composition) (k : Nat) (h : isLowest c.badAddress k) :
    firstIndex (fun car : Car => car.address = 0 || car.address > 126) 1 c.cars = some k := by
  obtain ⟨h1, ⟨car, hc, hb⟩, h3⟩ := h
  rw [firstIndex_some _ _ 1 (k-1) car hc (by simp; omega) ?_]; congr 1; omega
  intro i y hi hy
  have := h3 (i+1) (by omega) (by omega)
  simp [Composition.badAddress, hy] at this
  simp; omega

/-- Check DUPLICATE finds no car. -/
theorem firstRepeat_none : ∀ (l : List Car) (seen : List Nat) (k : Nat), firstRepeat seen k l = none ↔
    (∀ x ∈ l, x.address ∉ seen) ∧ l.Pairwise (fun a b => a.address ≠ b.address)
  | [], seen, k => by simp [firstRepeat]
  | c :: cs, seen, k => by
    rw [firstRepeat]
    by_cases h : seen.contains c.address = true
    · simp only [h, if_true]; simp at h; simp [h]
    · simp only [h]; simp at h; simp [firstRepeat_none cs, h]
      constructor
      · rintro ⟨a, b⟩; exact ⟨fun x hx => (a x hx).2, fun x hx => Ne.symm (a x hx).1, b⟩
      · rintro ⟨a, b, d⟩; exact ⟨fun x hx => ⟨Ne.symm (b x hx), a x hx⟩, d⟩

/-- Check DUPLICATE finds the first car whose address came before. -/
theorem firstRepeat_some : ∀ (l : List Car) (seen : List Nat) (k j : Nat) (x : Car), l[j]? = some x →
    (x.address ∈ seen ∨ ∃ i y, i < j ∧ l[i]? = some y ∧ y.address = x.address) →
    (∀ m y, m < j → l[m]? = some y → y.address ∉ seen ∧ ∀ i z, i < m → l[i]? = some z → z.address ≠ y.address) →
    firstRepeat seen k l = some (k + j)
  | [], seen, k, j, x, h, _, _ => by simp at h
  | c :: cs, seen, k, 0, x, h, h2, _ => by
    simp at h; subst h
    rcases h2 with h2 | ⟨i, y, hi, _⟩
    · simp [firstRepeat, h2]
    · omega
  | c :: cs, seen, k, j+1, x, h, h2, h3 => by
    have h4 := (h3 0 c (by omega) rfl).1
    simp only [firstRepeat, List.contains_iff_mem, h4]
    rw [if_neg (by simp)]
    rw [firstRepeat_some cs (c.address :: seen) (k+1) j x (by simpa using h) ?_ ?_]
    · congr 1; omega
    · rcases h2 with h2 | ⟨i, y, hi, hy, hxy⟩
      · left; simp [h2]
      · cases i with
        | zero => simp at hy; subst hy; left; simp [hxy]
        | succ i => right; exact ⟨i, y, by omega, by simpa using hy, hxy⟩
    · intro m y hm hy
      have := h3 (m+1) y (by omega) (by simpa using hy)
      refine ⟨?_, fun i z hi hz => this.2 (i+1) z (by omega) (by simpa using hz)⟩
      simp; exact ⟨Ne.symm (this.2 0 c (by omega) rfl), this.1⟩

/-- Check DUPLICATE finds no car of a composition. -/
theorem repeatsAddress_none (c : Composition) : (∀ k, 1 ≤ k → ¬ c.repeatsAddress k) ↔ firstRepeat [] 1 c.cars = none := by
  rw [firstRepeat_none]; simp
  rw [List.pairwise_iff_getElem]
  constructor
  · intro h i j hi hj hij heq
    exact h (j+1) (by omega) ⟨c.cars[j], i+1, c.cars[i], by simp, by omega, by omega, by simp, heq.symm⟩
  · rintro h k hk ⟨car, j, other, h1, h2, h3, h4, h5⟩
    obtain ⟨a1, a2⟩ := List.getElem?_eq_some_iff.1 h1
    obtain ⟨b1, b2⟩ := List.getElem?_eq_some_iff.1 h4
    exact h (j-1) (k-1) b1 a1 (by omega) (by rw [a2, b2, h5])

/-- Check DUPLICATE finds the lowest car it holds of. -/
theorem repeatsAddress_some (c : Composition) (k : Nat) (h : isLowest c.repeatsAddress k) :
    firstRepeat [] 1 c.cars = some k := by
  obtain ⟨h1, ⟨car, j, other, g1, g2, g3, g4, g5⟩, h3⟩ := h
  rw [firstRepeat_some _ [] 1 (k-1) car g1 (Or.inr ⟨j-1, other, by omega, g4, g5.symm⟩) ?_]; congr 1; omega
  intro m y hm hy
  refine ⟨by simp, fun i z hi hz he => h3 (m + 1) (by omega) (by omega) ?_⟩
  exact ⟨y, i + 1, z, hy, by omega, by omega, hz, he.symm⟩

/-- Check ORDER finds no car. -/
theorem firstDisorder_none : ∀ (l : List Car) (b : Option Nat) (k : Nat), firstDisorder b k l = none ↔
    (∀ n x, b = some n → l.head? = some x → n < x.offset) ∧
      ∀ i x y, l[i]? = some x → l[i+1]? = some y → x.offset < y.offset
  | [], b, k => by cases b <;> simp [firstDisorder]
  | c :: cs, b, k => by
    have step : firstDisorder (some c.offset) (k + 1) cs = none ↔
        ∀ i x y, (c :: cs)[i]? = some x → (c :: cs)[i + 1]? = some y → x.offset < y.offset := by
      rw [firstDisorder_none cs]
      constructor
      · rintro ⟨a, b⟩ i x y hx hy
        cases i with
        | zero => simp at hx hy; subst hx; exact a c.offset y rfl (by rw [List.head?_eq_getElem?]; exact hy)
        | succ i => exact b i x y (by simpa using hx) (by simpa using hy)
      · intro h
        refine ⟨fun n x hn hx => ?_, fun i x y hx hy => h (i+1) x y (by simpa using hx) (by simpa using hy)⟩
        cases hn; exact h 0 c x rfl (by rw [List.head?_eq_getElem?] at hx; simpa using hx)
    cases b with
    | none => simp [firstDisorder, step]
    | some n =>
      rw [firstDisorder]
      by_cases h : c.offset ≤ n
      · rw [if_pos h]
        exact ⟨nofun, fun hx => absurd (hx.1 n c rfl rfl) (by omega)⟩
      · simp [h, step]; omega

/-- Check ORDER finds the first car that does not lie behind the one before it. -/
theorem firstDisorder_some : ∀ (l : List Car) (b : Option Nat) (k j : Nat) (x : Car), l[j]? = some x →
    ((j = 0 ∧ ∃ n, b = some n ∧ x.offset ≤ n) ∨ ∃ y, 1 ≤ j ∧ l[j-1]? = some y ∧ x.offset ≤ y.offset) →
    (∀ n c, 0 < j → b = some n → l[0]? = some c → n < c.offset) →
    (∀ m y z, m + 1 < j → l[m + 1]? = some y → l[m]? = some z → z.offset < y.offset) →
    firstDisorder b k l = some (k + j)
  | [], b, k, j, x, h, _, _, _ => by simp at h
  | c :: cs, b, k, 0, x, h, h2, _, _ => by
    simp at h; subst h
    rcases h2 with ⟨_, n, hb, h2⟩ | ⟨y, hy, _⟩
    · subst hb; simp [firstDisorder, h2]
    · omega
  | c :: cs, b, k, j+1, x, h, h2, h3, h4 => by
    have ih := firstDisorder_some cs (some c.offset) (k+1) j x (by simpa using h) ?_ ?_ ?_
    · cases b with
      | none => simp [firstDisorder, ih]; omega
      | some n =>
        have := h3 n c (by omega) rfl rfl
        simp [firstDisorder, Nat.not_le.2 this, ih]; omega
    · rcases h2 with ⟨h2, _⟩ | ⟨y, _, hy, hxy⟩
      · omega
      · cases j with
        | zero => simp at hy; subst hy; left; exact ⟨rfl, _, rfl, hxy⟩
        | succ j => right; exact ⟨y, by omega, by simpa using hy, hxy⟩
    · intro n d hj hn hd
      cases hn; exact h4 0 d c (by omega) (by simpa using hd) rfl
    · intro m y z hm hy hz
      exact h4 (m+1) y z (by omega) (by simpa using hy) (by simpa using hz)

/-- Check ORDER finds no car of a composition. -/
theorem outOfOrder_none (c : Composition) : (∀ k, 1 ≤ k → ¬ c.outOfOrder k) ↔ firstDisorder none 1 c.cars = none := by
  rw [firstDisorder_none]; simp
  constructor
  · intro h i x y hx hy
    have := fun hle => h (i+2) (by omega) ⟨y, x, by omega, hy, hx, hle⟩
    exact Nat.lt_of_not_le this
  · rintro h k hk ⟨car, before, h1, h2, h3, h4⟩
    have := h (k-2) before car h3 (by rw [show k - 2 + 1 = k - 1 by omega]; exact h2)
    omega

/-- Check ORDER finds the lowest car it holds of. -/
theorem outOfOrder_some (c : Composition) (k : Nat) (h : isLowest c.outOfOrder k) :
    firstDisorder none 1 c.cars = some k := by
  obtain ⟨h1, ⟨car, before, g1, g2, g3, g4⟩, h3⟩ := h
  rw [firstDisorder_some _ none 1 (k - 1) car g2
    (Or.inr ⟨before, by omega, by rw [show k - 1 - 1 = k - 2 by omega]; exact g3, g4⟩) (by simp) ?_]
  · congr 1; omega
  intro m y z hm hy hz
  have := fun hle => h3 (m+2) (by omega) (by omega) ⟨y, z, by omega, hy, hz, hle⟩
  exact Nat.lt_of_not_le this

/-- Check TRAIN_LENGTH. -/
theorem badLength_iff (c : Composition) (hne : 1 ≤ c.cars.length) : c.badLength ↔
    (decide (c.length < lastOffset c.cars) || decide (c.length > 60000)) = true := by
  unfold Composition.badLength lastOffset
  cases h : c.cars.getLast? with
  | none => simp at h; simp [h] at hne
  | some car => simp

/-! ### The bytes of a plan -/

/-- The entries of a LDPLAN payload are read as they are written. -/
theorem parseEntries_bytes : ∀ (plan : List PlanEntry), (∀ e ∈ plan, e.car ≤ 255 ∧ e.span ≤ 255) →
    parseEntries plan.length (plan.flatMap fun e => [BitVec.ofNat 8 e.car, BitVec.ofNat 8 e.span]) = plan
  | [], _ => rfl
  | e :: es, h => by
    have h1 := h e (by simp)
    have ih := parseEntries_bytes es (fun x hx => h x (by simp [hx]))
    simp only [List.length_cons, parseEntries, List.flatMap_cons, List.cons_append, List.nil_append,
      List.drop_succ_cons, List.drop_zero, ih]
    simp [byteAt]; cases e; simp at *; omega

/-- The length of the entries of a LDPLAN payload. -/
theorem entryBytes_length (plan : List PlanEntry) :
    (plan.flatMap fun e => [BitVec.ofNat 8 e.car, BitVec.ofNat 8 e.span]).length = 2 * plan.length := by
  induction plan with
  | nil => rfl
  | cons a l ih => rw [List.flatMap_cons, List.length_append, ih]; simp; omega

end Sys2Proof.Machine
end

