-- ==== Sys2Proof/Laws/Table.lean ====
section
/-! SUPPORT. What the searches of the Curve Table find, in the words of the statements (`lowestAt`, `noSlot`), what
replacing a slot does, what numbering a list does, and what the reach is. -/

namespace Sys2Proof.Machine

/-! ### Numbered lists -/

/-- The member of a numbered list at a place. -/
theorem mapNumbered_getElem? {α β : Type} (f : Nat → α → β) :
    ∀ (l : List α) (k j : Nat), (mapNumbered f k l)[j]? = (l[j]?).map (f (k + j))
  | [], _, _ => by simp [mapNumbered]
  | _ :: _, _, 0 => by simp [mapNumbered]
  | _ :: xs, k, j + 1 => by
    simp only [mapNumbered, List.getElem?_cons_succ]
    rw [mapNumbered_getElem? f xs (k + 1) j, Nat.add_assoc, Nat.add_comm 1 j]

@[simp] theorem mapNumbered_length {α β : Type} (f : Nat → α → β) :
    ∀ (l : List α) (k : Nat), (mapNumbered f k l).length = l.length
  | [], _ => rfl
  | _ :: xs, k => by simp [mapNumbered, mapNumbered_length f xs (k + 1)]

/-! ### The lowest slot -/

/-- No slot meets the check. -/
theorem lowestSlot_eq_none (check : Nat → Slot → Bool) : ∀ (l : List Slot) (k : Nat),
    lowestSlot check k l = none ↔ ∀ (j : Nat) (y : Slot), l[j]? = some y → check (k + j) y = false
  | [], _ => by simp [lowestSlot]
  | x :: xs, k => by
    rw [lowestSlot]
    cases hx : check k x with
    | true =>
      simp only [if_true, reduceCtorEq, false_iff]
      intro h
      have := h 0 x rfl
      simp [hx] at this
    | false =>
      simp only [Bool.false_eq_true, if_false]
      rw [lowestSlot_eq_none check xs (k + 1)]
      constructor
      · rintro h (_ | j) y hy
        · simp only [List.getElem?_cons_zero, Option.some.injEq] at hy; simpa [← hy] using hx
        · have := h j y (by simpa using hy)
          rwa [Nat.add_assoc, Nat.add_comm 1 j] at this
      · intro h j y hy
        have := h (j + 1) y (by simpa using hy)
        rwa [Nat.add_assoc, Nat.add_comm 1 j]

/-- The lowest slot that meets the check. -/
theorem lowestSlot_eq_some (check : Nat → Slot → Bool) : ∀ (l : List Slot) (k n : Nat),
    lowestSlot check k l = some n ↔ ∃ i x, n = k + i ∧ l[i]? = some x ∧ check n x = true
      ∧ ∀ (j : Nat) (y : Slot), j < i → l[j]? = some y → check (k + j) y = false
  | [], _, _ => by simp [lowestSlot]
  | x :: xs, k, n => by
    rw [lowestSlot]
    cases hx : check k x with
    | true =>
      simp only [if_true, Option.some.injEq]
      constructor
      · rintro rfl
        exact ⟨0, x, rfl, rfl, hx, fun j _ hj => absurd hj (Nat.not_lt_zero j)⟩
      · rintro ⟨_ | i, _, h1, _, _, h4⟩
        · exact h1.symm
        · have := h4 0 x (Nat.succ_pos _) rfl
          simp [hx] at this
    | false =>
      simp only [Bool.false_eq_true, if_false]
      rw [lowestSlot_eq_some check xs (k + 1) n]
      constructor
      · rintro ⟨i, y, h1, h2, h3, h4⟩
        refine ⟨i + 1, y, by omega, by simpa using h2, h3, ?_⟩
        rintro (_ | j) z hj hz
        · simp only [List.getElem?_cons_zero, Option.some.injEq] at hz; simpa [← hz] using hx
        · have := h4 j z (by omega) (by simpa using hz)
          rwa [Nat.add_assoc, Nat.add_comm 1 j] at this
      · rintro ⟨_ | i, y, h1, h2, h3, h4⟩
        · simp only [List.getElem?_cons_zero, Option.some.injEq] at h2
          subst h2; subst h1; simp [hx] at h3
        · refine ⟨i, y, by omega, by simpa using h2, h3, fun j z hj hz => ?_⟩
          have := h4 (j + 1) z (by omega) (by simpa using hz)
          rwa [Nat.add_assoc, Nat.add_comm 1 j]

section
variable (t : CurveTable) (check : Nat → Slot → Bool) (meets : Nat → Slot → Prop)

/-- A search of the table that finds nothing. -/
theorem lowestSlot_none_iff_noSlot (h : ∀ j y, check j y = true ↔ meets j y) :
    lowestSlot check 0 t.slots = none ↔ t.noSlot meets := by
  rw [lowestSlot_eq_none]
  unfold CurveTable.noSlot
  refine forall_congr' fun j => forall_congr' fun y => imp_congr_right fun _ => ?_
  rw [Nat.zero_add, ← h, Bool.not_eq_true]

/-- A search of the table that finds a slot. -/
theorem lowestSlot_some_iff_lowestAt (h : ∀ j y, check j y = true ↔ meets j y) (n : Nat) :
    lowestSlot check 0 t.slots = some n ↔ ∃ x, t.lowestAt meets n x := by
  rw [lowestSlot_eq_some]
  unfold CurveTable.lowestAt
  constructor
  · rintro ⟨i, x, h1, h2, h3, h4⟩
    rw [Nat.zero_add] at h1
    subst h1
    refine ⟨x, h2, (h _ _).1 h3, fun j y hj hy hm => ?_⟩
    have := h4 j y hj hy
    rw [Nat.zero_add] at this
    simp [(h j y).2 hm] at this
  · rintro ⟨x, h1, h2, h3⟩
    refine ⟨n, x, (Nat.zero_add n).symm, h1, (h _ _).2 h2, fun j y hj hy => ?_⟩
    have := h3 j y hj hy
    rw [Nat.zero_add]
    rw [← h, Bool.not_eq_true] at this
    exact this

end

/-! ### The searches the rows make -/

/-- The check of `slotOfKey`. -/
theorem viewHasKey_iff (key j : Nat) (y : Slot) :
    (y.view.any fun r => decide (r.key = key)) = true ↔ viewHasKey key j y := by
  unfold viewHasKey
  cases y.view <;> simp

theorem slotOfKey_none (t : CurveTable) (key : Nat) : t.slotOfKey key = none ↔ t.noSlot (viewHasKey key) :=
  lowestSlot_none_iff_noSlot t _ _ fun j y => viewHasKey_iff key j y

theorem slotOfKey_some (t : CurveTable) (key n : Nat) :
    t.slotOfKey key = some n ↔ ∃ x, t.lowestAt (viewHasKey key) n x :=
  lowestSlot_some_iff_lowestAt t _ _ (fun j y => viewHasKey_iff key j y) n

theorem lowestFree_none (t : CurveTable) : t.lowestFree = none ↔ t.noSlot fun _ y => y.state = .free :=
  lowestSlot_none_iff_noSlot t _ _ fun _ _ => by simp

theorem lowestFree_some (t : CurveTable) (n : Nat) :
    t.lowestFree = some n ↔ ∃ x, t.lowestAt (fun _ y => y.state = .free) n x :=
  lowestSlot_some_iff_lowestAt t _ _ (fun _ _ => by simp) n

/-- The check of `lowestOther` for a shared marker. -/
theorem otherHasMarker_iff (i : Option Nat) (r : Record) (j : Nat) (y : Slot) :
    (decide (i ≠ some j) && y.view.any r.sharesMarker) = true ↔ otherHasMarker i r j y := by
  unfold otherHasMarker Record.sharesMarker
  cases y.view with
  | none => simp
  | some q => cases hr : r.marker <;> cases hq : q.marker <;> simp [hq]

/-- The check of `lowestOther` for an overlap. -/
theorem otherOverlaps_iff (i : Option Nat) (r : Record) (j : Nat) (y : Slot) :
    (decide (i ≠ some j) && y.view.any r.overlaps) = true ↔ otherOverlaps i r j y := by
  unfold otherOverlaps Record.overlaps
  cases y.view with
  | none => simp
  | some q => cases hr : r.body <;> cases hq : q.body <;> simp [hq]

theorem otherMarker_none (t : CurveTable) (i : Option Nat) (r : Record) :
    t.lowestOther i r.sharesMarker = none ↔ t.noSlot (otherHasMarker i r) :=
  lowestSlot_none_iff_noSlot t _ _ fun j y => otherHasMarker_iff i r j y

theorem otherMarker_some (t : CurveTable) (i : Option Nat) (r : Record) (n : Nat) :
    t.lowestOther i r.sharesMarker = some n ↔ ∃ x, t.lowestAt (otherHasMarker i r) n x :=
  lowestSlot_some_iff_lowestAt t _ _ (fun j y => otherHasMarker_iff i r j y) n

theorem otherOverlap_none (t : CurveTable) (i : Option Nat) (r : Record) :
    t.lowestOther i r.overlaps = none ↔ t.noSlot (otherOverlaps i r) :=
  lowestSlot_none_iff_noSlot t _ _ fun j y => otherOverlaps_iff i r j y

theorem otherOverlap_some (t : CurveTable) (i : Option Nat) (r : Record) (n : Nat) :
    t.lowestOther i r.overlaps = some n ↔ ∃ x, t.lowestAt (otherOverlaps i r) n x :=
  lowestSlot_some_iff_lowestAt t _ _ (fun j y => otherOverlaps_iff i r j y) n

/-- The check of `slotOfMarker`. -/
theorem liveMarker_iff (id j : Nat) (y : Slot) : (y.liveMarker.any fun m => decide (m.id = id)) = true ↔
    (fun (_ : Nat) (x : Slot) => ∃ r k, x.live = some r ∧ r.marker = some k ∧ k.id = id) j y := by
  unfold Slot.liveMarker
  cases hl : y.live with
  | none => simp [hl]
  | some r => cases hm : r.marker <;> simp [hl, hm]

theorem slotOfMarker_none (t : CurveTable) (id : Nat) : t.slotOfMarker id = none ↔
    t.noSlot fun _ x => ∃ r k, x.live = some r ∧ r.marker = some k ∧ k.id = id :=
  lowestSlot_none_iff_noSlot t _ _ fun j y => liveMarker_iff id j y

theorem slotOfMarker_some (t : CurveTable) (id n : Nat) : t.slotOfMarker id = some n ↔
    ∃ x, t.lowestAt (fun _ x => ∃ r k, x.live = some r ∧ r.marker = some k ∧ k.id = id) n x :=
  lowestSlot_some_iff_lowestAt t _ _ (fun j y => liveMarker_iff id j y) n

/-! ### Slots by number -/

/-- The slot of a number that the table has. -/
theorem slot_of_getElem? {t : CurveTable} {n : Nat} {x : Slot} (h : t.slots[n]? = some x) : t.slot n = x := by
  simp [CurveTable.slot, h]

/-! ### The reach -/

/-- The farthest of a list of places. -/
theorem farthest_spec (travel : TravelSense) (l : List Nat) : isFarthest travel (· ∈ l) (farthest travel l) := by
  cases l with
  | nil => exact ⟨⟨fun _ _ h => (nomatch h), fun _ => rfl⟩, fun _ h => (nomatch h)⟩
  | cons x xs =>
    refine ⟨⟨fun h => (nomatch h), fun h => absurd (List.mem_cons_self) (h x)⟩, fun r hr => ?_⟩
    have hf : ∀ (l : List Nat) (m : Nat), (l.foldl (farther travel) m = m ∨ l.foldl (farther travel) m ∈ l)
        ∧ ∀ p, p = m ∨ p ∈ l → if travel = .ascending then p ≤ l.foldl (farther travel) m
          else l.foldl (farther travel) m ≤ p := by
      intro l
      induction l with
      | nil => intro m; refine ⟨Or.inl rfl, ?_⟩; rintro p (rfl | h); cases travel <;> simp; cases h
      | cons a l ih =>
        intro m
        obtain ⟨h1, h2⟩ := ih (farther travel m a)
        have h3 := h2 _ (Or.inl rfl)
        simp only [List.foldl_cons]
        refine ⟨?_, ?_⟩
        · rcases h1 with h1 | h1
          · rw [h1]
            cases travel <;> simp only [farther, List.mem_cons] <;> omega
          · exact Or.inr (List.mem_cons_of_mem _ h1)
        · rintro p (rfl | h)
          · cases travel <;> simp [farther] at h3 ⊢ <;> omega
          · rcases List.mem_cons.1 h with rfl | h
            · cases travel <;> simp [farther] at h3 ⊢ <;> omega
            · exact h2 p (Or.inr h)
    cases hr
    obtain ⟨h1, h2⟩ := hf xs x
    exact ⟨by simpa using h1, fun p hp => h2 p (by simpa using hp)⟩

/-- The reach as the table stands. -/
theorem reachNow_spec (t : CurveTable) (travel : TravelSense) :
    isFarthest travel (t.reachPlace travel) (t.reachNow travel) := by
  have hp : t.reachPlace travel =
      (· ∈ (t.slots.filterMap Slot.view).map (Record.farEnd travel) ++ t.coverage.toList) := by
    funext p
    apply propext
    simp only [CurveTable.reachPlace, List.mem_append, List.mem_map, List.mem_filterMap, Option.mem_toList]
    constructor
    · rintro (h | ⟨x, hx, r, hr, rfl⟩)
      · exact Or.inr h
      · exact Or.inl ⟨r, ⟨x, hx, hr⟩, by cases travel <;> rfl⟩
    · rintro (⟨r, ⟨x, hx, hr⟩, rfl⟩ | h)
      · exact Or.inr ⟨x, hx, r, hr, by cases travel <;> rfl⟩
      · exact Or.inl h
  rw [hp]
  exact farthest_spec _ _

/-- The farthest of some places is one. -/
theorem isFarthest_unique {travel : TravelSense} {place : Nat → Prop} {a b : Option Nat}
    (ha : isFarthest travel place a) (hb : isFarthest travel place b) : a = b := by
  cases a with
  | none => exact (hb.1.2 (ha.1.1 rfl)).symm
  | some x =>
    obtain ⟨h1, h2⟩ := ha.2 x rfl
    cases b with
    | none => exact absurd h1 (hb.1.1 rfl x)
    | some y =>
      obtain ⟨h3, h4⟩ := hb.2 y rfl
      have h5 := h2 y h3
      have h6 := h4 x h1
      cases travel <;> simp at h5 h6 <;> exact congrArg some (by omega)

end Sys2Proof.Machine
end

