-- ==== Sys2Proof/Laws/Records.lean ====
section
/-! SUPPORT. What the checks of CLOSER decide, what a write of profile values leaves, that withdrawing slots returns
their points to the pool, and the cap and the demand of a place. -/

namespace Sys2Proof.Machine

/-! ### The lowest slot -/

/-- The lowest slot that meets a condition is one slot. -/
theorem CurveTable.lowestAt_unique {t : CurveTable} {m : Nat → Slot → Prop} {i j : Nat} {x y : Slot}
    (h : t.lowestAt m i x) (h' : t.lowestAt m j y) : i = j ∧ x = y := by
  obtain ⟨a, b, c⟩ := h
  obtain ⟨a', b', c'⟩ := h'
  have : i = j := by
    rcases Nat.lt_trichotomy i j with hl | he | hl
    · exact absurd b (c' i x hl a)
    · exact he
    · exact absurd b' (c j y hl a')
  subst this
  rw [a] at a'
  exact ⟨rfl, Option.some.inj a'⟩

/-! ### The checks of CLOSER -/

/-- No value of a profile lies above 1024. -/
theorem firstAbove_none : ∀ (l : List Nat) (k : Nat), firstAbove k l = none ↔ ∀ v ∈ l, v ≤ 1024
  | [], k => by simp [firstAbove]
  | x :: xs, k => by
    rw [firstAbove]
    by_cases h : 1024 < x
    · rw [if_pos h]
      exact ⟨nofun, fun hv => absurd (hv x List.mem_cons_self) (by omega)⟩
    · simp [h, firstAbove_none xs (k + 1)]; omega

/-- A profile without an offence is one that meets R24. -/
theorem profileOffence_none (k first last : Nat) (values : List Nat) :
    profileOffence k first last values = none ↔ profileFits first last values := by
  unfold profileOffence profileFits
  cases values with
  | nil => simp
  | cons v vs =>
    simp only
    cases h : firstAbove k (v :: vs) with
    | none =>
      have h' := (firstAbove_none _ _).1 h
      by_cases hv : v = first
      · by_cases hl : (v :: vs).getLast? = some last
        · simp only [hv] at *; simp [hl]; simpa using h'
        · simp only [hv] at *; simp [hl]
      · simp [hv]
    | some p =>
      have : ¬ (∀ w ∈ v :: vs, w ≤ 1024) := by rw [← firstAbove_none _ k, h]; simp
      simp; intro h1 h2 h3
      simp at this
      exact this h3

/-- The place of the first value above 1024. -/
theorem firstAbove_some : ∀ (l : List Nat) (k p : Nat), firstAbove k l = some p →
    ∃ n v, l[n]? = some v ∧ 1024 < v ∧ (∀ m w, m < n → l[m]? = some w → w ≤ 1024) ∧ p = k + n
  | [], _, _, h => nomatch h
  | v :: vs, k, p, h => by
    unfold firstAbove at h
    split at h
    · cases h
      exact ⟨0, v, rfl, by assumption, fun m w hm => absurd hm (Nat.not_lt_zero m), rfl⟩
    · obtain ⟨n, w, h1, h2, h3, h4⟩ := firstAbove_some vs (k + 1) p h
      refine ⟨n + 1, w, h1, h2, fun m u hm hu => ?_, by omega⟩
      cases m with
      | zero => cases hu; omega
      | succ m => exact h3 m u (by omega) hu

/-- The place of the first offence of a profile is the one R51 names. -/
theorem profileOffence_some (k first last : Nat) (values : List Nat) (place : Nat)
    (h : profileOffence k first last values = some place) : offendsAt k first last values place := by
  unfold profileOffence at h
  split at h
  · cases h
  · rename_i v vs
    split at h
    · rename_i p hp
      cases h
      exact Or.inl (firstAbove_some _ _ _ hp)
    · rename_i hp
      refine Or.inr ⟨(firstAbove_none _ _).1 hp, ?_⟩
      split at h
      · cases h; exact Or.inl ⟨v, rfl, by assumption, rfl⟩
      · rename_i hf
        split at h
        · cases h
          refine Or.inr ⟨by simpa using hf, vs.getLast?.getD v, List.getLast?_cons, ?_, by simp⟩
          rename_i hl
          intro he; exact hl (by rw [← he]; exact List.getLast?_cons)
        · cases h

/-- The first check of CLOSER passes on a complete assembly. -/
theorem checkComplete_none (a : Assembly) : a.checkComplete = none ↔ a.complete := by
  simp [Assembly.checkComplete, Assembly.complete]

/-- The second passes where both profiles meet R24. -/
theorem checkProfiles_none (a : Assembly) : a.checkProfiles = none ↔ a.profilesFit := by
  unfold Assembly.checkProfiles Assembly.profilesFit
  rw [← profileOffence_none 0, ← profileOffence_none a.nIn]
  cases profileOffence 0 0 1024 a.entryProfile <;> cases profileOffence a.nIn 1024 0 a.exitProfile <;> simp

/-- The fifth passes where the record does not lie behind the rear car. -/
theorem checkBehind_none (a : Assembly) (s : State) : a.checkBehind s = none ↔ ¬ s.behindRear a.record := by
  unfold Assembly.checkBehind State.behindRear
  cases h : s.rearPosition s.leadCm with
  | none => simp
  | some r => cases ht : s.position.travel <;> simp [Record.behind]

/-! ### Writing values -/

/-- A write takes as many values as there are places for. -/
theorem accepted_length (a : Assembly) (place : Nat) (values : List Word) :
    (a.accepted place values).length = min values.length (a.total - place) := by
  simp [Assembly.accepted, Nat.min_comm]

/-- The written count after a write from a place within what is written. -/
theorem write_length (a : Assembly) (place : Nat) (values : List Word) (h : place ≤ a.values.length) :
    (a.write place values).values.length = max a.values.length (place + min values.length (a.total - place)) := by
  simp [Assembly.write, accepted_length]; omega

/-- The places after a write: the values taken, and elsewhere what was written before. -/
theorem write_getElem? (a : Assembly) (place n : Nat) (values : List Word) (h : place ≤ a.values.length) :
    (a.write place values).values[n]? =
      if place ≤ n ∧ n < place + min values.length (a.total - place) then (values[n - place]?).map BitVec.toNat
      else a.values[n]? := by
  simp only [Assembly.write, accepted_length]
  rw [List.getElem?_append]
  simp only [List.length_append, List.length_take, accepted_length, Nat.min_eq_left h]
  split
  · rename_i hlt
    rw [List.getElem?_append]
    simp only [List.length_take, Nat.min_eq_left h]
    split
    · rename_i hlt2
      rw [if_neg (by omega), List.getElem?_take, if_pos hlt2]
    · rw [if_pos (by omega)]
      simp only [Assembly.accepted]
      rw [List.getElem?_take, if_pos (by omega)]; simp
  · rw [if_neg (by omega), List.getElem?_drop]
    congr 1; omega

/-! ### Withdrawing slots -/

/-- An ARMED or ACTIVE slot has a live image. -/
theorem Slot.live_of_published {x : Slot} (h : x.state = .armed ∨ x.state = .active) : ∃ r, x.live = some r := by
  unfold Slot.state at h
  split at h
  · split at h <;> simp at h
  · rename_i r hr; exact ⟨_, hr⟩

/-- A STAGED slot has a pending image and no live one. -/
theorem Slot.pending_of_staged {x : Slot} (h : x.state = .staged) : x.live = none ∧ ∃ r, x.pending = .image r := by
  unfold Slot.state at h
  split at h
  · split at h <;> simp_all
  · split at h
    · simp at h
    · split at h <;> simp at h

/-- The finding of each slot of a section, by number. -/
theorem mapFindings_getElem? (t : CurveTable) (f : SectionFields) : ∀ (l : List Slot) (k j : Nat),
    (CurveTable.sectionFindings.mapFindings t f k l)[j]? = (l[j]?).map (t.sectionFinding f (k + j))
  | [], k, j => by simp [CurveTable.sectionFindings.mapFindings]
  | x :: xs, k, 0 => by simp [CurveTable.sectionFindings.mapFindings]
  | x :: xs, k, j + 1 => by
    simp only [CurveTable.sectionFindings.mapFindings, List.getElem?_cons_succ]
    rw [mapFindings_getElem? t f xs (k + 1) j]
    congr 2; omega

/-- A section has a finding for each slot. -/
theorem mapFindings_length (t : CurveTable) (f : SectionFields) : ∀ (l : List Slot) (k : Nat),
    (CurveTable.sectionFindings.mapFindings t f k l).length = l.length
  | [], k => by simp [CurveTable.sectionFindings.mapFindings]
  | x :: xs, k => by simp [CurveTable.sectionFindings.mapFindings, mapFindings_length t f xs]

/-- A slot given a pending withdrawal holds the points of its live image alone. -/
theorem points_withdraw (x : Slot) :
    Slot.points { x with pending := .withdrawal, overwritten := x.overwritten || x.pendingImage.isSome }
      + imagePoints x.pendingImage = x.points := by
  simp [Slot.points, Slot.pendingImage, imagePoints]

/-- What a section does to a slot returns the points that the slot no longer holds. -/
theorem points_applySection (x : Slot) (f : Option WithdrawFinding) :
    (applySection x f).points + returnedSection x f = x.points := by
  cases f with
  | none => simp [applySection, returnedSection]
  | some g =>
    cases g <;>
      simp [applySection, returnedSection, WithdrawFinding.apply, WithdrawFinding.returned, Slot.withdraw]
    · simp [Slot.points, Slot.freed, imagePoints, Slot.pendingImage]
    · exact points_withdraw x

/-- What a section does to all slots returns the points that they no longer hold. -/
theorem heldPoints_applySection : ∀ (l : List Slot) (fs : List (Option WithdrawFinding)), fs.length = l.length →
    (List.zipWith returnedSection l fs).sum + heldPoints (List.zipWith applySection l fs) = heldPoints l
  | [], [], _ => by simp [heldPoints]
  | x :: xs, f :: fs, h => by
    have := heldPoints_applySection xs fs (by simpa using h)
    have := points_applySection x f
    simp [heldPoints] at *; omega

/-- The count of a kind of finding in a section. -/
theorem countFindings_mapFindings (c : WithdrawFinding → Bool) (t : CurveTable) (f : SectionFields) :
    ∀ (l : List Slot) (k : Nat), countFindings (CurveTable.sectionFindings.mapFindings t f k l) c
      = (l.zipIdx k).countP fun p => (t.sectionFinding f p.2 p.1).any c
  | [], k => by simp [CurveTable.sectionFindings.mapFindings, countFindings]
  | x :: xs, k => by
    have := countFindings_mapFindings c t f xs (k + 1)
    simp [CurveTable.sectionFindings.mapFindings, countFindings, List.countP_cons] at *
    omega

/-! ### Points of the pool -/

/-- Replacing a slot changes the points held by those of the slot. -/
theorem heldPoints_set : ∀ (l : List Slot) (i : Nat) (x y : Slot), l[i]? = some x →
    heldPoints (l.set i y) + x.points = heldPoints l + y.points
  | [], i, x, y, h => by simp at h
  | a :: l, 0, x, y, h => by simp at h; subst h; simp [heldPoints]; omega
  | a :: l, i + 1, x, y, h => by
    have := heldPoints_set l i x y (by simpa using h)
    simp [heldPoints] at *; omega

/-- A FREE slot holds no image. -/
theorem Slot.empty_of_free {x : Slot} (h : x.state = .free) : x.live = none ∧ x.pendingImage = none := by
  unfold Slot.state at h
  split at h
  · split at h <;> simp_all [Slot.pendingImage]
  · split at h
    · simp at h
    · split at h <;> simp at h

/-- The record of a complete assembly takes the points it declares. -/
theorem record_points {a : Assembly} (h : a.checkComplete = none) : a.record.points = a.total := by
  have : a.total ≤ a.values.length := by simpa [Assembly.checkComplete] using h
  unfold Assembly.total Assembly.nIn Assembly.nOut at *
  unfold Record.points Assembly.record
  cases hb : a.body with
  | limit c => simp
  | curve c =>
    simp [hb] at this
    simp [Assembly.entryProfile, Assembly.exitProfile, Assembly.nIn, Assembly.nOut, hb]; omega

/-- An assembly that CLOSER does not refuse passes every check. -/
theorem closeRefusal_none {a : Assembly} {s : State} (h : a.closeRefusal s = none) :
    a.checkComplete = none ∧ a.checkProfiles = none ∧ a.checkKey s.table = none ∧ a.checkMarker s.table = none
      ∧ a.checkBehind s = none ∧ a.checkOverlap s.table = none ∧ a.checkRoom s.table = none
      ∧ a.checkPool s.table = none := by
  unfold Assembly.closeRefusal at h
  cases h1 : a.checkComplete <;> simp [firstRefusal, h1] at h
  cases h2 : a.checkProfiles <;> simp [firstRefusal, h2] at h
  cases h3 : a.checkKey s.table <;> simp [firstRefusal, h3] at h
  cases h4 : a.checkMarker s.table <;> simp [firstRefusal, h4] at h
  cases h5 : a.checkBehind s <;> simp [firstRefusal, h5] at h
  cases h6 : a.checkOverlap s.table <;> simp [firstRefusal, h6] at h
  cases h7 : a.checkRoom s.table <;> simp [firstRefusal, h7] at h
  cases h8 : a.checkPool s.table <;> simp [firstRefusal, h8] at h
  simp

/-! ### The cap and the demand of a place -/

/-- The least of a list of numbers and a start value. -/
theorem foldl_min (l : List Nat) : ∀ m, l.foldl min m ≤ m ∧ (∀ x ∈ l, l.foldl min m ≤ x)
    ∧ (l.foldl min m = m ∨ l.foldl min m ∈ l) := by
  induction l with
  | nil => intro m; simp
  | cons a l ih =>
    intro m
    obtain ⟨h1, h2, h3⟩ := ih (min m a)
    simp only [List.foldl_cons, List.mem_cons, forall_eq_or_imp]
    refine ⟨by omega, ⟨by omega, h2⟩, ?_⟩
    rcases h3 with h3 | h3
    · rw [h3]
      by_cases h : m ≤ a
      · left; omega
      · right; left; omega
    · right; right; exact h3

/-- The cap of a place is the least of 800 and the caps of the LIMIT records there. -/
theorem limitCap_spec (slots : List Slot) (p : Int) :
    limitCap slots p ≤ 800
      ∧ (∀ x ∈ slots, ∀ r n, x.live = some r → r.body = .limit n → (r.e0 : Int) ≤ p → p < (r.e3 : Int) →
          limitCap slots p ≤ n)
      ∧ (limitCap slots p = 800 ∨ ∃ x ∈ slots, ∃ r, x.live = some r ∧ r.body = .limit (limitCap slots p)
          ∧ (r.e0 : Int) ≤ p ∧ p < (r.e3 : Int)) := by
  obtain ⟨h1, h2, h3⟩ := foldl_min ((slots.filterMap Slot.live).map fun r => r.capAt p) maxLean
  refine ⟨h1, ?_, ?_⟩
  · intro x hx r n hr hb h4 h5
    apply h2
    simp only [List.mem_map, List.mem_filterMap]
    exact ⟨r, ⟨x, hx, hr⟩, by simp [Record.capAt, hb, Record.covers, h4, h5]⟩
  · rcases h3 with h3 | h3
    · left; exact h3
    · simp only [List.mem_map, List.mem_filterMap] at h3
      obtain ⟨r, ⟨x, hx, hr⟩, hc⟩ := h3
      unfold Record.capAt at hc
      split at hc
      · left; exact hc.symm
      · rename_i cap hb
        split at hc
        · rename_i hcov
          right; refine ⟨x, hx, r, hr, by rw [hb, hc]; rfl, ?_⟩
          simpa [Record.covers] using hcov
        · left; exact hc.symm

/-- No demand at a place that stands at no chainage. -/
theorem demandAt_offTrack (s : State) (k : Nat) (q : Int) (hs : s.recordsSound) (hq : onTrack q = false) :
    s.demandAt k q = 0 := by
  have hc : ∀ x ∈ s.table.slots, x.contribution s.demand.limits.band s.position.snapshot.speed q = 0 := by
    intro x hx
    unfold Slot.contribution
    split
    · rfl
    · rename_i r hr
      have h := (hs.1 x hx).1 r hr
      unfold Record.contribution
      split
      · rfl
      · rw [if_neg]
        simp only [Record.covers, decide_eq_true_eq]
        have hq : ¬ (0 ≤ q ∧ q ≤ maxChainage) := by simpa [onTrack] using hq
        have := h.2.2.2.1
        unfold maxChainage at hq
        omega
  have hr : rawSum s.table.slots s.demand.limits.band s.position.snapshot.speed q = 0 := by
    unfold rawSum
    rw [show (s.table.slots.map fun x => x.contribution s.demand.limits.band s.position.snapshot.speed q)
      = s.table.slots.map fun _ => (0 : Int) from List.map_congr_left hc]
    rw [show (s.table.slots.map fun _ => (0 : Int)).sum = 0 from ?_]
    · rfl
    · induction s.table.slots with
      | nil => rfl
      | cons a l ih => simpa using ih
  unfold State.demandAt
  rw [hr]
  have : limitMagnitude 0 (s.capFor k q) = 0 := by unfold limitMagnitude; omega
  simp [this]

end Sys2Proof.Machine
end

