-- ==== Sys2Proof/Laws/Replies.lean ====
section
/-! SUPPORT. That a reply is judged as R124 and R125 say, and what taking the outcome of an exchange does. -/

namespace Sys2Proof.Machine

/-- The condition a code names (10.5). -/
theorem ofCode_some (n : Nat) (x : Condition) : Condition.ofCode n = some x ↔
    (n = 1 ∧ x = .ready ∨ n = 2 ∧ x = .slow ∨ n = 3 ∧ x = .fault) := by
  unfold Condition.ofCode
  by_cases h1 : n = 1
  · subst h1; simp [eq_comm]
  · by_cases h2 : n = 2
    · subst h2; simp [eq_comm]
    · by_cases h3 : n = 3
      · subst h3; simp [eq_comm]
      · simp [h1, h2, h3]
/-- A code that names no condition. -/
theorem ofCode_none (n : Nat) : Condition.ofCode n = none ↔ n ≠ 1 ∧ n ≠ 2 ∧ n ≠ 3 := by
  unfold Condition.ofCode
  by_cases h1 : n = 1
  · subst h1; simp
  · by_cases h2 : n = 2
    · subst h2; simp
    · by_cases h3 : n = 3
      · subst h3; simp
      · simp [h1, h2, h3]
/-- The judgement of a reply is that of R124 and R125. -/
theorem judgeReply_spec (e : Exchange) : e.judgedAs (replyOutcome (judgeReply e)) (judgeReply e) := by
  have hcond : ∀ x, replyCondition e.kind e.received = some x ↔
      (e.conditionField = 1 ∧ x = .ready ∨ e.conditionField = 2 ∧ x = .slow
        ∨ e.conditionField = 3 ∧ x = .fault) := by
    intro x
    unfold replyCondition Exchange.conditionField
    cases e.kind <;> exact ofCode_some _ _
  have hnone : replyCondition e.kind e.received = none ↔
      (e.conditionField ≠ 1 ∧ e.conditionField ≠ 2 ∧ e.conditionField ≠ 3) := by
    unfold replyCondition Exchange.conditionField
    cases e.kind <;> exact ofCode_none _
  have hbad : e.replyBad ↔ judgeReply e = none := by
    unfold Exchange.replyBad judgeReply
    rw [← hnone]
    simp only [checkAgrees, beforeCheck]
    by_cases a1 : e.received.length < e.kind.replyLength
    · simp [a1]
    by_cases a2 : e.framingError = true
    · simp [a2]
    by_cases a3 : checkOf (e.received.take (e.received.length - 2)) = wordAt e.received (e.received.length - 2)
    · by_cases a4 : (byteAt e.received 0).toNat = e.address
      · by_cases a5 : byteAt e.received 1 = e.kind.replyKind
        · simp [a1, a2, a3, a4, a5]
        · simp [a5]
      · simp [a4]
    · simp [a3]
  refine ⟨fun h => by rw [hbad.1 h]; exact ⟨rfl, rfl⟩, fun h => ?_⟩
  have hj : judgeReply e ≠ none := fun hn => h (hbad.2 hn)
  obtain ⟨r, hr⟩ := Option.ne_none_iff_exists'.1 hj
  refine ⟨r, hr, ?_⟩
  rw [hr]
  unfold judgeReply at hr
  split at hr; · simp at hr
  split at hr; · simp at hr
  split at hr; · simp at hr
  split at hr; · simp at hr
  split at hr; · simp at hr
  simp at hr
  obtain ⟨x, hx, hr⟩ := hr
  subst hr
  refine ⟨rfl, ?_, ?_, ?_, ?_, ?_⟩
  · intro h1
    have := (hcond x).1 hx
    simp [h1] at this; subst this; exact ⟨rfl, rfl⟩
  · intro h1
    have := (hcond x).1 hx
    simp [h1] at this; subst this; exact ⟨rfl, rfl⟩
  · intro h1
    have := (hcond x).1 hx
    simp [h1] at this; subst this; exact ⟨rfl, rfl⟩
  · intro h1; simp [replyWords, h1]
  · intro h1; simp [replyWords, h1]; rfl

/-- A flag after a GOOD reply is one whose mark was delivered, cleared (R113). -/
theorem flagAfterGood_eq (f : LatchedFlag) : flagAfterGood f = f.deliver := rfl

/-- What taking an outcome does (R89, R113, R126, R139, R146). The outcome agrees with what the reply carries. -/
theorem takeOutcome_spec (s : State) (e : Exchange) (o : ExchangeOutcome) (reply : Option Reply) (hcar : 1 ≤ e.car)
    (hj : reply.isSome → e.kind = .setpoint → o = (reply.map fun r => r.condition.outcome).getD .bad) :
    OutcomeTaken s (s.takeOutcome e o reply) e o reply := by
  have hpoll : (s.takeOutcome e o reply).poll =
      { s.poll.endExchange e with result := (s.takeOutcome e o reply).poll.result } := by
    unfold State.takeOutcome; cases e.voided
    · simp [State.applyOutcome]; split <;> simp [State.writeResult, State.countOutcome, State.putHealth]
    · simp
  refine ⟨?_, ?_, ?_, fun hm => ?_, fun hp => ⟨?_, ?_, ?_⟩, fun hv => ?_, fun hv => ?_⟩
  · unfold State.takeOutcome; cases e.voided
    · simp [State.applyOutcome]
      split <;> simp [State.writeResult, State.countOutcome, State.putHealth, LinkKept] <;> split <;>
        simp [LinkPort.raiseCar]
    · simp; exact ⟨rfl, rfl, rfl, rfl, rfl, rfl, rfl⟩
  · unfold State.takeOutcome; cases e.voided
    · refine ⟨fun b => ?_, ?_, ?_, ?_⟩
      · cases b <;> simp [Block.same, State.applyOutcome]
        all_goals split <;> simp [State.writeResult, State.countOutcome, State.putHealth]
      all_goals simp [State.applyOutcome]; split <;> simp [State.writeResult, State.countOutcome, State.putHealth]
    · exact ⟨fun b => by cases b <;> simp [Block.same], rfl, rfl, rfl⟩
  · rw [hpoll]; simp [PollEngine.endExchange]
  · rw [hpoll]; simp [PollEngine.endExchange, hm]
  · rw [hpoll]; simp [PollEngine.endExchange, hp]
  · intro k hk hl; rw [hpoll]; simp [PollEngine.endExchange, hp, hk, hl]
  · intro hl; rw [hpoll]; simp [PollEngine.endExchange, hp]
    intro h; cases hk : s.poll.pass with
    | none => rfl
    | some k => have := hl k hk; simp [hk] at h; omega
  · simp [State.takeOutcome, hv, PollEngine.endExchange, Raised, withCauses]
  · have hT : s.takeOutcome e o reply = (s.setPoll (s.poll.endExchange e)).applyOutcome e o reply := by
      simp [State.takeOutcome, hv]
    rw [hT]
    have hdem : ((s.setPoll (s.poll.endExchange e)).applyOutcome e o reply).demand
        = s.demand.putCar e.car fun c => c.settle e.kind reply := by
      simp [State.applyOutcome]; split <;> simp [State.writeResult, State.countOutcome, State.putHealth]
    refine ⟨fun h hh => ⟨?_, ?_⟩, ?_, ?_, ?_, ?_, ?_, ?_, ?_⟩
    · have : (s.setPoll (s.poll.endExchange e)).healthOf e.car = h := by
        simp [State.healthOf, show e.car ≠ 0 by omega, hh]
      simp [State.applyOutcome]
      split <;> simp [State.writeResult, State.countOutcome, State.putHealth, this, show e.car ≠ 0 by omega]
    · have : (s.setPoll (s.poll.endExchange e)).healthOf e.car = h := by
        simp [State.healthOf, show e.car ≠ 0 by omega, hh]
      simp [State.applyOutcome]
      split <;>
        simp [State.writeResult, State.countOutcome, State.putHealth, this, show e.car ≠ 0 by omega] <;>
        split <;> simp [LinkPort.raiseCar, carWord, bitWord]
    · simp [State.applyOutcome]
      split <;> simp [State.writeResult, State.countOutcome, State.putHealth, State.raise, LinkPort.raise] <;>
        split <;> simp [LinkPort.raiseCar]
    · simp [State.applyOutcome]
      split <;> simp [State.writeResult, State.countOutcome, State.putHealth, State.raise, LinkPort.raise] <;>
        split <;> simp [LinkPort.raiseCar]
    · rw [hdem]; simp [DemandUnit.putCar, show e.car ≠ 0 by omega]
    · intro j hj
      rw [hdem]
      simp [DemandUnit.putCar, show e.car ≠ 0 by omega, List.getElem?_modify]
      simp [show ¬ e.car - 1 = j by omega]
    · intro c hc; rw [hdem]
      have hget : (s.demand.putCar e.car fun c => c.settle e.kind reply).cars[e.car - 1]?
          = some (c.settle e.kind reply) := by
        simp [DemandUnit.putCar, show e.car ≠ 0 by omega, hc]
      rw [hget]
      refine ⟨fun hn => by rw [hn]; rfl, fun r hr => ⟨fun ⟨hk, ho⟩ => ?_, fun hn => ?_⟩⟩
      · have hjj := hj (by simp [hr]) hk
        simp [hr] at hjj
        simp [CarOutput.settle, hr, hk, ← hjj, ho, CarOutput.store, CarOutput.deliver, flagAfterGood_eq]
      · cases hk : e.kind with
        | inquiry => simp [CarOutput.settle, hr, CarOutput.store]
        | setpoint =>
          have hjj := hj (by simp [hr]) hk
          simp [hr] at hjj
          have : o ≠ .good := fun h => hn ⟨hk, h⟩
          simp [CarOutput.settle, hr, ← hjj]; cases o <;> simp_all [CarOutput.store]
    · intro hp; simp [State.applyOutcome, hp, State.countOutcome, State.putHealth, PollEngine.endExchange]
    · intro hm
      simp [State.applyOutcome, hm, State.writeResult, ResultRecord.write, State.countOutcome, State.putHealth,
        PollEngine.endExchange]
      cases s.poll.result <;> simp

end Sys2Proof.Machine
end

