-- ==== Sys2Proof/Tests/Slice0.lean ====
section
/-! SUPPORT. Tests of the model: ill-formed rows that the check refuses, one small run of each row, the numbers of the
spec's worked examples, and, for each statement that has hypotheses, a state and operands that meet them. -/

namespace Sys2Proof.Tests

open Sys2Proof.Machine

/-! ### Ill-formed rows -/

/-- A number that no field carries. -/
def tooWide : Nat := 2 ^ 32

/-- OPENR fields that open a CURVE of extent [500,000, 508,000) with profiles of three values (04, worked example). -/
def openFields : OpenFields where
  intent := .named .new
  key := 701#16
  kind := .named .curve
  sectionTag := 163
  e0 := 500000#32
  e1 := 502000#32
  e2 := 506000#32
  e3 := 508000#32
  hand := .named .right
  angleOrCap := 400
  bandPresent := false
  vZero := 0#16
  vFull := 0#16
  nIn := 3
  nOut := 3
  markerPresent := true
  markerId := 4101
  markerPosition := 501000#32

/-- SETLIM's fields at their values after power-on. -/
def limitFields : LimitFields where
  slew := 25
  gangway := 300
  doubtCap := 200
  vZero := 1500
  vFull := 3500
  previewStep := 1000

theorem test_wellFormed_accepts :
    (Instr.openr (.exact openFields)).wellFormed = true ∧ (Instr.setlim (.exact limitFields)).wellFormed = true
      ∧ (Instr.putp (.exact (List.replicate 30 0))).wellFormed = true
      ∧ (Instr.setcomp (List.replicate 60 0)).wellFormed = true
      ∧ (Instr.hold (.exact 4294967295)).wellFormed = true := by decide
theorem test_illFormed_hold : (Instr.hold (.exact tooWide)).wellFormed = false := by decide
theorem test_illFormed_setcal : (Instr.setcal (.exact tooWide)).wellFormed = false := by decide
theorem test_illFormed_rdcar : (Instr.rdcar (.exact tooWide)).wellFormed = false := by decide
theorem test_illFormed_setbus : (Instr.setbus (.exact tooWide)).wellFormed = false := by decide
theorem test_illFormed_xchg : (Instr.xchg (.exact tooWide)).wellFormed = false := by decide
theorem test_illFormed_restore : (Instr.restore (.exact tooWide)).wellFormed = false := by decide
theorem test_illFormed_setfix :
    (Instr.setfix (.exact { window := tooWide, intervalLimit := 0 })).wellFormed = false
      ∧ (Instr.setfix (.exact { window := 0, intervalLimit := tooWide })).wellFormed = false := by decide
theorem test_illFormed_openr :
    (Instr.openr (.exact { openFields with sectionTag := tooWide })).wellFormed = false
      ∧ (Instr.openr (.exact { openFields with angleOrCap := tooWide })).wellFormed = false
      ∧ (Instr.openr (.exact { openFields with nIn := tooWide })).wellFormed = false
      ∧ (Instr.openr (.exact { openFields with nOut := tooWide })).wellFormed = false
      ∧ (Instr.openr (.exact { openFields with markerId := tooWide })).wellFormed = false := by decide
theorem test_illFormed_putp : (Instr.putp (.exact (List.replicate 31 0))).wellFormed = false := by decide
theorem test_illFormed_contp : (Instr.contp (.exact (List.replicate 31 0))).wellFormed = false := by decide
theorem test_illFormed_wdraw : (Instr.wdraw (.exact { key := 1, force := tooWide })).wellFormed = false := by decide
theorem test_illFormed_wdsect :
    (Instr.wdsect (.exact { tag := tooWide, mask := 0, force := 0 })).wellFormed = false
      ∧ (Instr.wdsect (.exact { tag := 0, mask := tooWide, force := 0 })).wellFormed = false
      ∧ (Instr.wdsect (.exact { tag := 0, mask := 0, force := tooWide })).wellFormed = false := by decide
theorem test_illFormed_rdslot :
    (Instr.rdslot (.exact { slot := tooWide, part := .named .fields })).wellFormed = false := by decide
theorem test_illFormed_setcyc :
    (Instr.setcyc (.exact { period := tooWide, horizon := 0 })).wellFormed = false
      ∧ (Instr.setcyc (.exact { period := 0, horizon := tooWide })).wellFormed = false := by decide
theorem test_illFormed_setlim :
    (Instr.setlim (.exact { limitFields with slew := tooWide })).wellFormed = false
      ∧ (Instr.setlim (.exact { limitFields with gangway := tooWide })).wellFormed = false
      ∧ (Instr.setlim (.exact { limitFields with doubtCap := tooWide })).wellFormed = false
      ∧ (Instr.setlim (.exact { limitFields with vZero := tooWide })).wellFormed = false
      ∧ (Instr.setlim (.exact { limitFields with vFull := tooWide })).wellFormed = false
      ∧ (Instr.setlim (.exact { limitFields with previewStep := tooWide })).wellFormed = false := by decide
theorem test_illFormed_setcomp : (Instr.setcomp (List.replicate 61 0)).wellFormed = false := by decide
theorem test_illFormed_ldplan : (Instr.ldplan (List.replicate 61 0)).wellFormed = false := by decide

/-! ### Small states -/

/-- The next state of a row; the state itself where there is none. -/
def after (i : Instr) (s : State) : State :=
  match exec i s with
  | .next t => t
  | .fault _ => s
  | .refused _ => s

/-- The result and payload of the answer to a command. -/
def reply (i : Instr) (s : State) : Option (ResultCode × AnswerPayload) :=
  (after i s).link.answer.map fun a => (a.result, a.payload)

/-- Three cars at offsets 1,000, 3,500 and 6,000 cm (04, worked example). -/
def train : Composition where
  cars := [{ address := 11, offset := 1000 }, { address := 12, offset := 3500 }, { address := 13, offset := 6000 }]
  length := 7000
  reader := 1200

/-- After power-on, in CONFIG, with no composition. -/
def fresh : State := State.reset

/-- In CONFIG with the train composed. -/
def composed : State := fresh.setDemand { fresh.demand with composition := some train }

/-- In a mode other than CONFIG, with the timer running and RP at a chainage in cm. -/
def inMode (m : Mode) (cm : Nat) : State :=
  ((composed.setMode { composed.mode with mode := m }).setTimer
    { composed.timer with running := true, cycleLength := some 20 }).setPosition
    { composed.position with rp := cm * 256, snapshot := { composed.position.snapshot with lead := cm } }

/-- A state whose first slots are given; the others are FREE. -/
def withSlots (s : State) (slots : List Slot) : State :=
  s.setTable { s.table with
    slots := slots ++ List.replicate (64 - slots.length) Slot.freed, poolFree := 512 - heldPoints slots }

/-- A CURVE under a car from 500,000 to 508,000 cm, with a marker. -/
def curve701 : Record where
  key := 701
  sectionTag := 163
  e0 := 500000
  e3 := 508000
  body := .curve
    { e1 := 502000, e2 := 506000, hand := .right, angle := 400, band := none, entry := [0, 512, 1024],
      exit := [1024, 512, 0] }
  marker := some { id := 4101, position := 501000 }

/-- A LIMIT over the same stretch. -/
def limit702 : Record where
  key := 702
  sectionTag := 164
  e0 := 500000
  e3 := 508000
  body := .limit 250
  marker := none

/-- A slot with a live image and nothing staged. -/
def liveSlot (r : Record) (status : PositionStatus) : Slot :=
  { Slot.freed with live := some r, status := status, publishedAt := some 470000 }

/-- A STAGED slot. -/
def stagedSlot (r : Record) : Slot := { Slot.freed with pending := .image r }

/-- RUNNING at 499,500 cm, with curve 701 ARMED in slot 0. -/
def loaded : State := withSlots (inMode .running 499500) [liveSlot curve701 .armed]

/-- A state whose port is ANSWERING. -/
def answering (s : State) : State := after (.rdstat (.exact ())) s

/-- A state with an assembly of curve 701 that holds some values. -/
def assembling (s : State) (values : List Nat) : State :=
  s.setTable { s.table with
    assembly := some
      { intent := .new, key := 701, sectionTag := 163, e0 := 500000, e3 := 508000,
        body := .curve { e1 := 502000, e2 := 506000, hand := .right, angle := 400, band := none, nIn := 3, nOut := 3 },
        marker := some { id := 4101, position := 501000 }, values := values, writePosition := values.length } }

/-- The profile values of curve 701. -/
def profiles701 : List Nat := [0, 512, 1024, 1024, 512, 0]

/-- A state with the lock, fix distance and interval limit given. -/
def locked (s : State) (lock : Lock) (fix limit : Nat) : State :=
  s.setPosition { s.position with lock := lock, fixDistance := fix, intervalLimit := limit }

/-- A state with the manual slot given. -/
def withManual (s : State) (m : ManualSlot) : State := s.setPoll { s.poll with manual := m }

/-- A state with a pass of one entry for car 1 at its first entry. -/
def withPass (s : State) : State :=
  s.setPoll { s.poll with active := [{ car := 1, span := 2 }], pass := some 1 }

/-- An exchange with car 1 in a phase, with the bytes of its reply so far. -/
def exchanging (s : State) (phase : BusPhase) (received : List Byte) : State :=
  s.setPoll { s.poll with
    phase := phase
    active := [{ car := 1, span := 2 }]
    pass := some 2
    exchange := some
      { origin := .plan, car := 1, address := 11, kind := .setpoint, timeout := 300, received := received,
        framingError := false, voided := false } }

/-- A status reply of car 1: angle +100, READY, with its check. -/
def goodReply : List Byte := withCheck [0x0B#8, 0x81#8, 0x64#8, 0x00#8, 0x01#8]

/-- A marker message for id 4101, with its check. -/
def markerBytes : List Byte := withCheck [0xA5#8, 0x05#8, 0x10#8, 0x00#8]

/-- A marker message in reception. -/
def withReception (s : State) (bytes : List Byte) : State :=
  s.setPosition { s.position with reception := some { bytes := bytes, stopBad := false } }

/-- A latched strobe. -/
def withLatch (s : State) (p : Int) : State := s.setPosition { s.position with latch := some p }

/-- A link receiver in a phase with a content. -/
def receiving (s : State) (phase : ReceiverPhase) (content : List Byte) : State :=
  s.setLink { s.link with
    receiver := { phase := phase, content := content, count := content.length, stopBad := false } }

/-- The frame of an RDSTAT to LADDR 0, with its check. -/
def rdstatFrame : List Byte := withCheck [0x00#8, 0x07#8]

/-- The health of car 1 replaced. -/
def withHealth (s : State) (h : CarHealth) : State := s.setHealth (s.health.set 0 h)

/-! ### Runs of the rows: mode and position commands -/

theorem test_check_of_the_nine_digits :
    checkOf [0x31#8, 0x32#8, 0x33#8, 0x34#8, 0x35#8, 0x36#8, 0x37#8, 0x38#8, 0x39#8] = 0x29B1#16 := by
  decide +kernel
theorem test_start :
    reply (.start (.exact ())) fresh = some (.noComposition, .empty)
      ∧ (after (.start (.exact ())) composed).mode.mode = .standby
      ∧ (after (.start (.exact ())) composed).timer.cycleLength = some 20
      ∧ (after (.start (.exact ())) composed).position.firstFence = true := by decide
theorem test_run :
    reply (.run (.exact ())) loaded = some (.already, .empty)
      ∧ (after (.run (.exact ())) (inMode .hold 0)).mode.mode = .running := by decide
theorem test_stby :
    reply (.stby (.exact ())) (inMode .standby 0) = some (.already, .empty)
      ∧ (after (.stby (.exact ())) loaded).mode.mode = .standby := by decide
theorem test_hold :
    reply (.hold (.exact 5001)) loaded = some (.badParam, .empty)
      ∧ reply (.hold (.exact 200)) loaded = some (.done, .value 200)
      ∧ (after (.hold (.exact 200)) loaded).mode.mode = .hold := by decide
theorem test_stop :
    reply (.stop (.exact ())) loaded = some (.wrongMode, .empty)
      ∧ (after (.stop (.exact ())) (withSlots (inMode .hold 0) [liveSlot curve701 .armed])).table
        = { State.reset.table with slots := List.replicate 64 Slot.freed }
      ∧ (after (.stop (.exact ())) (inMode .standby 0)).mode.mode = .config := by decide
theorem test_reset_waits_for_the_answer :
    (after .softwareReset (after (.reset (.exact ())) loaded)).mode.mode = .running
      ∧ (after .softwareReset (after .answerSent (after (.reset (.exact ())) loaded))).mode.mode = .config := by decide
theorem test_reset_ahead_keeps_the_port_busy :
    (after (.stby (.exact ())) (after .answerSent (after (.reset (.exact ())) loaded))).mode.mode = .running
      ∧ (after (.reset (.exact ())) (after .answerSent (after (.reset (.exact ())) loaded))).mode.resetStage = .due
      ∧ (after (.stby (.exact ())) (after .answerSent (after (.reset (.exact ())) loaded))).link.isSet .frameDropped
        = true := by decide
theorem test_rdstat : (reply (.rdstat (.exact ())) fresh).map Prod.fst = some .done := by decide
theorem test_setcal :
    reply (.setcal (.exact 15)) composed = some (.badParam, .empty)
      ∧ (after (.setcal (.exact 16)) (locked composed .locked 0 0)).position.lock = .noFix
      ∧ (after (.setcal (.exact 16)) (locked composed .locked 0 0)).link.isSet .lockChanged = true := by decide
theorem test_setpos :
    (after (.setpos (.exact 4294967295#32)) composed).position.rp = topPosition
      ∧ (after (.setpos (.exact 0#32)) composed).position.lock = .doubt
      ∧ reply (.setpos (.exact 0#32)) loaded = some (.wrongMode, .empty) := ⟨rfl, by decide, by decide⟩
theorem test_setfix :
    reply (.setfix (.exact { window := 9, intervalLimit := 0 })) composed = some (.badParam, .empty)
      ∧ (after (.setfix (.exact { window := 300, intervalLimit := 1 })) (locked composed .locked (101 * 256) 0)).position.lock
        = .doubt
      ∧ (after (.setfix (.exact { window := 300, intervalLimit := 1 })) (locked composed .locked (100 * 256) 0)).position.lock
        = .locked := by decide
theorem test_rdpos :
    reply (.rdpos (.exact ())) (inMode .running 499500) = some (.done, .position
      { rp := 499500, lock := .noFix, speed := 0, candidateHeld := false, candidateError := 0, fixDistance := 0,
        unmatched := 0, markerOverruns := 0, bad := 0 }) := by decide

/-! ### Record commands -/

theorem test_openr :
    reply (.openr (.exact openFields)) loaded = some (.done, .value 6)
      ∧ reply (.openr (.exact { openFields with nIn := 1 })) loaded = some (.badParam, .empty) := by decide
theorem test_putp :
    reply (.putp (.exact [0, 512, 1024, 1024, 512, 0, 7])) (assembling loaded []) = some (.done, .written 6 1 0)
      ∧ reply (.putp (.exact [])) loaded = some (.badParam, .empty) := by decide
theorem test_contp :
    reply (.contp (.exact [1024, 512])) (assembling loaded [0, 512, 1024]) = some (.done, .written 2 0 1)
      ∧ reply (.contp (.exact [0])) loaded = some (.noAssembly, .empty) := by decide
theorem test_closer_stages :
    reply (.closer (.exact ())) (assembling (inMode .running 499500) profiles701) = some (.done, .staged 0 506)
      ∧ (after (.closer (.exact ())) (assembling (inMode .running 499500) profiles701)).table.slots[0]?
        = some (stagedSlot curve701) := by decide
theorem test_closer_refuses :
    reply (.closer (.exact ())) (assembling loaded profiles701) = some (.keyInUse, .slot 0)
      ∧ reply (.closer (.exact ())) (assembling loaded [0, 512]) = some (.incomplete, .value 4)
      ∧ reply (.closer (.exact ())) (assembling loaded [0, 512, 1024, 1024, 512, 10])
        = some (.badProfile, .profilePlace .exit 5)
      ∧ reply (.closer (.exact ())) (assembling (inMode .running 514000) profiles701) = some (.behind, .empty) := by
  decide
theorem test_abandr :
    reply (.abandr (.exact ())) loaded = some (.noAssembly, .empty)
      ∧ (after (.abandr (.exact ())) (assembling loaded [])).table.assembly = none := by decide
theorem test_wdraw :
    reply (.wdraw (.exact { key := 701, force := 0 })) loaded = some (.done, .withdrawal 0 .pending)
      ∧ reply (.wdraw (.exact { key := 701, force := 0 })) (withSlots loaded [liveSlot curve701 .active])
        = some (.inUse, .slot 0) := by decide
theorem test_wdsect :
    reply (.wdsect (.exact { tag := 163, mask := 4095, force := 0 }))
        (withSlots loaded [liveSlot curve701 .armed, stagedSlot limit702]) = some (.done, .sectionCounts 1 0 0 0)
      ∧ reply (.wdsect (.exact { tag := 0, mask := 0, force := 0 }))
        (withSlots loaded [liveSlot curve701 .active, stagedSlot limit702])
        = some (.done, .sectionCounts 1 1 0 0) := by decide
theorem test_clrtab :
    reply (.clrtab (.exact ())) (withSlots (inMode .standby 0) [liveSlot curve701 .armed, stagedSlot limit702])
      = some (.done, .cleared 1 1 0) := by decide
theorem test_rdrec :
    (reply (.rdrec (.exact { key := 701, part := .named .entry })) loaded).map Prod.snd = some (.record
      { slot := 0, key := 701, state := .armed, pending := .none, fadeLevel := 0, overwritten := false,
        confirmed := false, image := .live } (.entry [0, 512, 1024])) := by decide
theorem test_rdslot :
    reply (.rdslot (.exact { slot := 63, part := .named .fields })) loaded = some (.done, .freeSlot 63)
      ∧ reply (.rdslot (.exact { slot := 64, part := .named .fields })) loaded = some (.badParam, .empty) := by decide

/-- The table of the FINDAT example: curve 501 of angle 600 and LIMIT 502 of cap 250 over 3,150,000, at 2,500 cm/s. -/
def findatState : State :=
  let s := withSlots (inMode .running 3100000)
    [liveSlot
      { curve701 with
        key := 501, e0 := 3140000, e3 := 3160000
        body := .curve
          { e1 := 3142000, e2 := 3158000, hand := .right, angle := 600, band := none, entry := [], exit := [] } }
      .armed,
      liveSlot { limit702 with key := 502, e0 := 3140000, e3 := 3160000 } .armed]
  s.setPosition { s.position with snapshot := { s.position.snapshot with speed := 2500 } }

theorem test_findat_of_the_example :
    reply (.findat (.exact 3150000#32)) findatState = some (.done, .found
      [{ key := 501, kind := .curve, state := .armed }, { key := 502, kind := .limit, state := .armed }] false 250) := by
  decide
theorem test_tsum :
    (after (.tsum (.exact ())) (after .answerSent (after .fence loaded))).table.bitmap = List.replicate 64 false
      ∧ (reply (.tsum (.exact ())) loaded).map Prod.fst = some .done := by decide
theorem test_cover :
    reply (.cover (.exact 499500#32)) loaded = some (.badParam, .empty)
      ∧ (after (.cover (.exact 499501#32)) loaded).table.coverage = some 499501 := by decide

/-! ### The other commands -/

theorem test_setcyc :
    reply (.setcyc (.exact { period := 41, horizon := 0 })) loaded = some (.badParam, .empty)
      ∧ (after (.setcyc (.exact { period := 40, horizon := 100 })) loaded).timer
        = { loaded.timer with period := 40 } := by decide
theorem test_setcomp :
    (after (.setcomp train.bytes) fresh).demand.composition = some train
      ∧ reply (.setcomp train.bytes) fresh = some (.done, .value 3)
      ∧ reply (.setcomp [0x01#8]) fresh = some (.badParam, .compReason .lengthOfPayload 0) := by decide
theorem test_settrav :
    (after (.settrav (.exact { travel := .named .descending, lead := .named .endB })) fresh).position.travel
        = .descending
      ∧ reply (.settrav (.exact { travel := .other, lead := .named .endB })) fresh = some (.badParam, .empty) := by
  decide
theorem test_rdcomp :
    ∃ r, reply (.rdcomp (.exact ())) composed = some (.done, .composition r) ∧ r.count = 3 ∧ r.effectiveReader = 1200
      ∧ r.rearCar = 3 := ⟨_, rfl, by decide⟩
theorem test_setlim :
    reply (.setlim (.exact { limitFields with slew := 0 })) composed = some (.badParam, .empty)
      ∧ (after (.setlim (.exact { limitFields with slew := 200 })) composed).demand.limits.slew = 200 := by decide
theorem test_rdcar :
    reply (.rdcar (.exact 17)) loaded = some (.badParam, .empty)
      ∧ (reply (.rdcar (.exact 16)) loaded).map Prod.fst = some .done := by decide
theorem test_setbus :
    reply (.setbus (.exact 800)) loaded = some (.done, .bus 800 false)
      ∧ reply (.setbus (.exact 0)) loaded = some (.done, .bus 300 false)
      ∧ reply (.setbus (.exact 850)) loaded = some (.badParam, .empty) := by decide
theorem test_ldplan :
    reply (.ldplan [0x01#8, 0x03#8, 0x02#8]) loaded = some (.done, .value 1)
      ∧ reply (.ldplan [0x01#8, 0x04#8, 0x02#8]) loaded = some (.badParam, .planReason .car 1) := by decide
theorem test_canplan :
    reply (.canplan (.exact ())) loaded = some (.already, .empty)
      ∧ (after (.canplan (.exact ())) (withPass loaded)).poll.active = [] := by decide
theorem test_canstby :
    reply (.canstby (.exact ())) loaded = some (.already, .empty)
      ∧ (after (.canstby (.exact ())) (loaded.setPoll { loaded.poll with standby := some [] })).poll.standby = none := by
  decide
theorem test_xchg :
    (after (.xchg (.exact 3)) loaded).poll.manual = .waiting 3
      ∧ reply (.xchg (.exact 4)) loaded = some (.badParam, .empty) := by decide
theorem test_canxchg :
    reply (.canxchg (.exact ())) (withManual loaded (.inFlight 1)) = some (.tooLate, .empty)
      ∧ reply (.canxchg (.exact ())) (withManual loaded (.waiting 1)) = some (.done, .empty) := by decide
theorem test_rdxchg : reply (.rdxchg (.exact ())) loaded = some (.noResult, .empty) := by decide
theorem test_restore :
    reply (.restore (.exact 1)) loaded = some (.already, .restored 1 .served 0)
      ∧ reply (.restore (.exact 1)) (withHealth loaded { state := .cutOut, counter := 255, recovery := 9 })
        = some (.done, .restored 1 .recovering 0) := by decide
theorem test_rdatt :
    (after (.rdatt (.exact ())) (loaded.raise .poolLow)).link.causes = 0
      ∧ (AnswerPayload.attention
          { causeWord := 0x3004#16, cars := 0, masks := 0, taken := 122, notTaken := 3, dropped := 1 }).bytes
        = [0x11#8, 0x04#8, 0x30#8, 0, 0, 0, 0, 122, 0, 3, 0, 1, 0] := by decide
theorem test_setmask :
    reply (.setmask (.exact 0x8000#16)) loaded = some (.badParam, .empty)
      ∧ reply (.setmask (.exact 0x7FFF#16)) loaded = some (.done, .masks 0x7FFF#16) := by decide

/-! ### Odometer and markers -/

theorem test_odometerPulse :
    (after (.odometerPulse .backward) (inMode .standby 1)).position.rp = 0
      ∧ (after (.odometerPulse .backward) (inMode .standby 1)).position.cycleDistance = -256 := by decide

/-- In HOLD with a hold distance of 200 m and a travelled distance in cm (11, worked example). -/
def holding (cm : Nat) : State :=
  let s := inMode .hold 3019800
  s.setMode { s.mode with holdDistance := 200, holdTravelled := cm * 256 }

theorem test_hold_expires_with_the_next_pulse :
    (after (.odometerPulse .forward) (holding 19999)).mode.mode = .hold
      ∧ (after (.odometerPulse .forward) (holding 20000)).mode.mode = .standby
      ∧ (after (.odometerPulse .forward) (holding 20000)).link.isSet .modeChanged = true := by decide
theorem test_holdExpiry :
    (after .holdExpiry (holding 20000)).mode.mode = .hold ∧ (after .holdExpiry (holding 20001)).mode.mode = .standby := by
  decide
theorem test_fixIntervalExpiry :
    (after .fixIntervalExpiry (locked loaded .locked (100 * 256) 1)).position.lock = .locked
      ∧ (after .fixIntervalExpiry (locked loaded .locked (101 * 256) 1)).position.lock = .doubt := by decide
theorem test_markerStrobe :
    (after .markerStrobe (inMode .running 1000000)).position.latch = some 998800
      ∧ (after .markerStrobe (withLatch (inMode .running 1000000) 0)).link.isSet .markerOverrun = true := by decide
theorem test_markerByte :
    (after (.markerByte 0x5A#8 true) loaded).position.reception = none
      ∧ (after (.markerByte 0xA5#8 false) loaded).position.reception = some { bytes := [0xA5#8], stopBad := true } := by
  decide

/-- Loaded, with a strobe latched at an error from the marker at 501,000 and all but the last byte of its message. -/
def fixing (lock : Lock) (error : Int) : State :=
  withReception (withLatch (locked loaded lock 0 0) (501000 - error)) (markerBytes.take 5)

/-- The last byte of the marker message. -/
def lastMarkerByte : Byte := byteAt markerBytes 5

theorem test_markerMessage_applies_a_fix_in_the_window :
    (after (.markerMessage lastMarkerByte true) (fixing .locked 300)).position.rp = 499800 * 256
      ∧ (after (.markerMessage lastMarkerByte true) (fixing .locked 300)).table.slots[0]?
        = some { liveSlot curve701 .armed with confirmed := true, confirmedAt := some 499800 } := by decide +kernel
theorem test_markerMessage_refuses_a_fix_beyond_it :
    (after (.markerMessage lastMarkerByte true) (fixing .locked 650)).position.candidate = some 650
      ∧ (after (.markerMessage lastMarkerByte true) (fixing .locked 650)).position.lock = .doubt
      ∧ (after (.markerMessage lastMarkerByte true) (fixing .locked 650)).link.isSet .fixRejected = true := by
  decide +kernel
theorem test_markerMessageCutShort :
    (after .markerMessageCutShort (withReception (withLatch loaded 0) [0xA5#8])).position.bad = 1
      ∧ (after .markerMessageCutShort (withReception (withLatch loaded 0) [0xA5#8])).position.latch = none := by decide

/-! ### The fence -/

/-- Loaded, with the lead at a chainage and the mode given. -/
def leadAt (m : Mode) (cm : Nat) (slots : List Slot) : State := withSlots (inMode m cm) slots

theorem test_fence_takes_the_speed :
    (after .fence (loaded.setPosition { loaded.position with cycleDistance := 300000 })).position.snapshot.speed
      = 58550 := by decide
theorem test_fence_activates_and_retires :
    (after .fence (leadAt .running 501200 [liveSlot curve701 .armed])).table.slots[0]?
        = some { liveSlot curve701 .active with activatedAt := some 501200 }
      ∧ (after .fence (leadAt .running 514000 [liveSlot curve701 .active])).table.slots[0]? = some Slot.freed
      ∧ (after .fence (leadAt .running 514000 [liveSlot curve701 .active])).table.poolFree = 512
      ∧ (after .fence (leadAt .running 514000 [liveSlot curve701 .active])).link.isSet .retired = true := by decide

/-! ### Tilt demand -/

/-- A CURVE whose plateau runs from 500 to 700 cm. -/
def nearCurve : Record := { curve701 with
  e0 := 500, e3 := 700, marker := none
  body := .curve { e1 := 500, e2 := 700, hand := .right, angle := 400, band := some { vZero := 0, vFull := 1 }, entry := [],
                   exit := [] } }

/-- A LIMIT of 60 over the same stretch. -/
def nearLimit : Record := { limit702 with e0 := 500, e3 := 700, body := .limit 60 }

/-- A state whose last snapshot was LOCKED at 36 km/h. -/
def snapshotLocked (s : State) : State :=
  s.setPosition { s.position with snapshot := { s.position.snapshot with lock := .locked, speed := 1000 } }

theorem test_interpolation_of_the_example :
    interpolate [0, 200, 800, 1024] 6000 3500 = 650 ∧ interpolate [0, 200, 800, 1024] 6000 900 = 90
      ∧ interpolate [0, 1024] 8000 1100 = 140 ∧ interpolate [0, 200, 800, 1024] 6000 5500 = 968 := by decide
theorem test_no_preview_from_a_car_off_the_track :
    (snapshotLocked (leadAt .running 600 [liveSlot nearLimit .armed, liveSlot nearCurve .armed])).demandAt 1 600 = 60
      ∧ (snapshotLocked (leadAt .running 600 [liveSlot nearCurve .armed])).preview 1 (-400) 600 = 0
      ∧ (snapshotLocked (leadAt .running 600 [liveSlot nearCurve .armed])).preview 1 0 600 = 400 := by decide
theorem test_slew_of_the_example :
    slew 25 350 400 = 375 ∧ slew 25 (-340) (-375) = -365 ∧ slew 25 (-320) (-300) = -300 ∧ slew 25 350 200 = 325 := by
  decide

/-! ### The tilt bus -/

theorem test_planEntryServed :
    (after .planEntryServed (withPass loaded)).poll.frame = some (.setpoint 11
        { holding := false, doubt := true, limited := false, cutOut := false, changed := false, fixed := false,
          beyond := true } [0, 0, 0, 0])
      ∧ (after .planEntryServed (withPass loaded)).tbusDe = true := by decide
theorem test_manualExchangeStart :
    (after .manualExchangeStart (withManual loaded (.waiting 2))).poll.frame = some (.inquiry 12)
      ∧ (after .manualExchangeStart (withManual (withPass loaded) (.waiting 2))).poll.frame = none := by decide
theorem test_frameSent : (after .frameSent (exchanging loaded .sending [])).poll.phase = .awaiting := by decide
theorem test_replyStartBit : (after .replyStartBit (exchanging loaded .awaiting [])).poll.phase = .receiving := by decide
theorem test_replyByteTaken_stores_a_good_reply :
    ((after (.replyByteTaken (byteAt goodReply 6) true) (exchanging loaded .receiving (goodReply.take 6))).demand.cars[0]?).map
        (fun c => (c.actual, c.condition)) = some (100, some .ready)
      ∧ (after (.replyByteTaken (byteAt goodReply 6) true)
          (exchanging loaded .receiving (goodReply.take 6))).poll.phase = .settling := by decide +kernel
theorem test_replyReceived_counts_a_bad_check :
    (after (.replyReceived 0x00#8 true)
      (exchanging loaded .receiving [0x0B#8, 0x81#8, 0x64#8, 0x00#8, 0x01#8, 0x00#8])).health[0]?
      = some { state := .served, counter := 8, recovery := 0 } := by decide +kernel
theorem test_replyCutShort :
    (after .replyCutShort (exchanging loaded .receiving [0x0B#8])).health[0]?
      = some { state := .served, counter := 8, recovery := 0 } := by decide +kernel
theorem test_replyTimeout :
    (after .replyTimeout (exchanging loaded .awaiting [])).health[0]?
        = some { state := .served, counter := 8, recovery := 0 }
      ∧ (after .replyTimeout (exchanging loaded .awaiting [])).poll.pass = none := by decide
theorem test_settlingDone : (after .settlingDone (exchanging loaded .settling [])).poll.phase = .idle := by decide
theorem test_health_at_its_thresholds :
    ({ state := .served, counter := 88, recovery := 0 } : CarHealth).count .bad
        = { state := .limited, counter := 96, recovery := 0 }
      ∧ ({ state := .limited, counter := 64, recovery := 0 } : CarHealth).count .good
        = { state := .served, counter := 63, recovery := 0 }
      ∧ ({ state := .limited, counter := 248, recovery := 0 } : CarHealth).count .timeout
        = { state := .cutOut, counter := 255, recovery := 0 }
      ∧ ({ state := .recovering, counter := 0, recovery := 63 } : CarHealth).count .good
        = { state := .served, counter := 0, recovery := 0 } := by decide

/-! ### The route link and the resets -/

/-- The frame of a START to LADDR 0 with one byte too many, with its check. -/
def longStart : List Byte := withCheck [0x00#8, 0x01#8, 0x00#8]

theorem test_a_row_answers_the_frame_that_carries_it :
    (after (.start (.exact ())) (after (.frameClosed true) (receiving composed .frame longStart))).mode.mode = .config
      ∧ ((after (.start .wrongLength) (after (.frameClosed true) (receiving composed .frame longStart))).link.answer.map
        Answer.result) = some .badParam := by decide +kernel
theorem test_linkCharacter :
    (after (.linkCharacter 0x7E#8 true) loaded).link.receiver.phase = .frame
      ∧ (after (.linkCharacter 0x5E#8 true) (receiving loaded .escape [])).link.receiver.content = [0x7E#8] := by decide
theorem test_frameClosed :
    (after (.frameClosed true) (receiving loaded .frame rdstatFrame)).link.phase = .acting
      ∧ (after (.rdstat (.exact ())) (after (.frameClosed true) (receiving loaded .frame rdstatFrame))).link.taken = 1
      ∧ (after (.frameClosed true) (receiving loaded .frame [0x00#8, 0x07#8, 0x00#8, 0x00#8])).link.isSet .frameBad
        = true := by decide +kernel
theorem test_frameAborted :
    (after (.frameAborted true) (receiving loaded .escape [0x00#8])).link.notTaken = 1
      ∧ (after (.frameAborted true) (receiving loaded .escape [])).link.notTaken = 0 := by decide
theorem test_answerSent : (after .answerSent (answering loaded)).link.phase = .idle := by decide
theorem test_answer_characters :
    (after (.run (.exact ())) loaded).linkTxFrame
      = some (frameOf (withCheck [0x02#8, 0x02#8, 0x03#8, 0x02#8])) := by rfl
theorem test_busy_port_drops :
    (after (.run (.exact ())) (answering loaded)).link.dropped = 1
      ∧ (after (.run (.exact ())) (answering loaded)).attnLow = true := by decide
theorem test_pinReset :
    (after (.pinReset { laddr := 9, lrate := 1, trate := true }) loaded).straps.laddr = 9
      ∧ (after (.pinReset { laddr := 9, lrate := 1, trate := true }) loaded).mode.mode = .config
      ∧ (after (.run (.exact ())) (after (.pinReset { laddr := 9, lrate := 1, trate := true }) loaded)).link.dropped = 0 := by
  decide
theorem test_powerOn :
    (after (.powerOn { laddr := 0, lrate := 0, trate := false }) loaded) = State.reset := by decide +kernel
theorem test_resetNRelease : after .resetNRelease (fresh.setResetHeld true) = fresh := by rfl

/-! ### States that meet the statements' hypotheses

Each theorem named meets_<statement> shows states and operands that meet the hypotheses of that statement, clause by
clause, at the ends of the ranges where a clause has a range. -/

/-- The slots of a small table. -/
theorem slot_of_withSlots {s : State} {l : List Slot} {j : Nat} {y : Slot}
    (h : (withSlots s l).table.slots[j]? = some y) : l[j]? = some y ∨ y = Slot.freed := by
  have h' : (l ++ List.replicate (64 - l.length) Slot.freed)[j]? = some y := h
  rw [List.getElem?_append] at h'
  split at h'
  · exact Or.inl h'
  · exact Or.inr (List.mem_replicate.1 (List.mem_of_getElem? h')).2

/-- Every slot of a small table is one of those given or FREE. -/
theorem mem_withSlots {s : State} {l : List Slot} {y : Slot} (h : y ∈ (withSlots s l).table.slots) :
    y ∈ l ∨ y = Slot.freed := by
  have h' : y ∈ l ++ List.replicate (64 - l.length) Slot.freed := h
  rcases List.mem_append.1 h' with h' | h'
  · exact Or.inl h'
  · exact Or.inr (List.mem_replicate.1 h').2

/-- A condition that no FREE slot meets is met by no slot of an empty table. -/
theorem noSlot_empty (s : State) (meets : Nat → Slot → Prop) (h : ∀ j, ¬ meets j Slot.freed) :
    (withSlots s []).table.noSlot meets := by
  intro j y hy
  rcases slot_of_withSlots hy with h' | h'
  · simp at h'
  · rw [h']; exact h j

/-- The same for a table of one slot, where that slot does not meet the condition either. -/
theorem noSlot_one (s : State) (x : Slot) (meets : Nat → Slot → Prop) (h0 : ¬ meets 0 x)
    (h : ∀ j, ¬ meets j Slot.freed) : (withSlots s [x]).table.noSlot meets := by
  intro j y hy
  rcases slot_of_withSlots hy with h' | h'
  · cases j with
    | zero => simp at h'; rw [← h']; exact h0
    | succ j => simp at h'
  · rw [h']; exact h j

/-- Slot 0 is the lowest that meets a condition it meets. -/
theorem lowest_zero {t : CurveTable} {meets : Nat → Slot → Prop} {x : Slot} (h : t.slots[0]? = some x)
    (hm : meets 0 x) : t.lowestAt meets 0 x := ⟨h, hm, fun j _ hj => absurd hj (Nat.not_lt_zero j)⟩

/-- Slot 1 is the lowest that meets a condition where slot 0 does not. -/
theorem lowest_one {t : CurveTable} {meets : Nat → Slot → Prop} {w x : Slot} (h0 : t.slots[0]? = some w)
    (h : t.slots[1]? = some x) (hw : ¬ meets 0 w) (hm : meets 1 x) : t.lowestAt meets 1 x := by
  refine ⟨h, hm, fun j y hj hy => ?_⟩
  obtain rfl : j = 0 := by omega
  rw [h0] at hy
  cases hy; exact hw

/-- A FREE slot carries no key. -/
theorem freed_key (key j : Nat) : ¬ viewHasKey key j Slot.freed := by rintro ⟨r, h, _⟩; cases h
/-- A FREE slot carries no marker. -/
theorem freed_marker (own : Option Nat) (r : Record) (j : Nat) : ¬ otherHasMarker own r j Slot.freed := by
  rintro ⟨_, q, _, _, h, _⟩; cases h
/-- A FREE slot overlaps nothing. -/
theorem freed_overlap (own : Option Nat) (r : Record) (j : Nat) : ¬ otherOverlaps own r j Slot.freed := by
  rintro ⟨_, q, _, _, h, _⟩; cases h

/-! #### Steps, resets and the port -/

theorem meets_StepTakesTheFrontCommand :
    (loaded.setPending [.fence, .markerStrobe]).pending = .fence :: [.markerStrobe] := rfl
theorem meets_NothingStopsThePart : fresh.pending = [] := rfl
theorem meets_ResetsSetTheirValues :
    (after .answerSent (after (.reset (.exact ())) loaded)).resetHeld = false
      ∧ (after .answerSent (after (.reset (.exact ())) loaded)).mode.resetStage = .due := by decide
theorem meets_HeldResetTakesNothing :
    (fresh.setResetHeld true).resetHeld = true
      ∧ (∀ straps, Instr.fence ≠ .pinReset straps ∧ Instr.fence ≠ .powerOn straps) ∧ Instr.fence ≠ .resetNRelease :=
  ⟨rfl, fun _ => ⟨fun h => (nomatch h), fun h => (nomatch h)⟩, fun h => (nomatch h)⟩
theorem meets_BusyPortDropsCommands :
    (Instr.run (.exact ())).code? = some .run ∧ (answering loaded).resetHeld = false
      ∧ ¬ (answering loaded).takes (.run (.exact ())) := by
  refine ⟨rfl, rfl, ?_⟩
  rintro ⟨_, _, h | ⟨h, _⟩⟩ <;> exact absurd h (by decide)
theorem meets_BusyPortDropsCommands_acting_on_another :
    ¬ (after (.frameClosed true) (receiving loaded .frame rdstatFrame)).takes (.run (.exact ()))
      ∧ ¬ (after (.frameClosed true) (receiving loaded .frame rdstatFrame)).takes (.rdstat .wrongLength) := by
  have hb : (after (.frameClosed true) (receiving loaded .frame rdstatFrame)).link.buffer = some (.frame rdstatFrame) := by
    decide +kernel
  have hp : (after (.frameClosed true) (receiving loaded .frame rdstatFrame)).link.phase ≠ .idle := by decide +kernel
  refine ⟨?_, ?_⟩
  · rintro ⟨_, _, h | ⟨_, c, b, hc, h, hh⟩⟩
    · exact hp h
    · cases hc; cases hb.symm.trans h; exact absurd hh (by decide)
  · rintro ⟨_, _, h | ⟨_, c, b, hc, h, hh⟩⟩
    · exact hp h
    · cases hc; cases hb.symm.trans h; exact absurd hh (by decide)
theorem meets_BusyPortDropsCommands_reset_ahead :
    ¬ (after .answerSent (after (.reset (.exact ())) loaded)).takes (.run (.exact ()))
      ∧ (after .answerSent (after (.reset (.exact ())) loaded)).link.phase = .idle :=
  ⟨fun h => absurd h.2.1 (by decide), by decide⟩
theorem meets_UnavailableCommandsAreRefused :
    (Instr.run .wrongLength).code? = some .run ∧ fresh.takes (.run .wrongLength)
      ∧ CommandCode.run.available fresh.mode.mode = false :=
  ⟨rfl, idle_takes _ rfl rfl rfl _ rfl, rfl⟩
theorem meets_UnavailableCommandsAreRefused_hand_over :
    (after (.frameClosed true) (receiving loaded .frame rdstatFrame)).takes (.rdstat (.exact ())) :=
  ⟨by decide +kernel, by decide +kernel, Or.inr ⟨by decide +kernel, .rdstat, .frame rdstatFrame, rfl, by decide +kernel,
    by decide +kernel⟩⟩
theorem meets_WrongLengthIsBadParam :
    (Instr.run .wrongLength).code? = some .run ∧ (Instr.run .wrongLength).wrongLength = true
      ∧ loaded.takes (.run .wrongLength) ∧ CommandCode.run.available loaded.mode.mode = true :=
  ⟨rfl, rfl, idle_takes _ rfl rfl rfl _ rfl, rfl⟩

/-! #### Invariants: a state in RUNNING with a live record, and a fence waiting -/

/-- Loaded, with a fence in the queue. -/
def fenceWaits : State := loaded.setPending [.fence]

/-- The slots of the loaded state. -/
theorem mem_loaded {x : Slot} (h : x ∈ fenceWaits.table.slots) : x = liveSlot curve701 .armed ∨ x = Slot.freed := by
  rcases mem_withSlots (s := inMode .running 499500) (l := [liveSlot curve701 .armed]) h with h | h
  · exact Or.inl (List.mem_singleton.1 h)
  · exact Or.inr h

/-- Two slots of the loaded state never hold an image each. -/
theorem loaded_one_image {i j : Nat} {x y : Slot} (hij : i ≠ j) (hx : fenceWaits.table.slots[i]? = some x)
    (hy : fenceWaits.table.slots[j]? = some y) : x = Slot.freed ∨ y = Slot.freed := by
  rcases slot_of_withSlots (s := inMode .running 499500) (l := [liveSlot curve701 .armed]) hx with h | h
  · rcases slot_of_withSlots (s := inMode .running 499500) (l := [liveSlot curve701 .armed]) hy with h' | h'
    · obtain ⟨h1, _⟩ := List.getElem?_eq_some_iff.1 h
      obtain ⟨h2, _⟩ := List.getElem?_eq_some_iff.1 h'
      simp only [List.length_singleton] at h1 h2
      omega
    · exact Or.inr h'
  · exact Or.inl h

theorem fenceWaits_poolSound : fenceWaits.poolSound := by unfold State.poolSound; decide
theorem fenceWaits_viewSound : fenceWaits.viewSound := by
  refine ⟨fun x hx => ?_, fun i j x y r q hij hx hy hr hq => ?_, fun i j x y r q hij hx hy hr hq => ?_⟩
  · rcases mem_loaded hx with rfl | rfl
    · exact ⟨fun h => (nomatch h), fun n h => (nomatch h), fun r q _ h => (nomatch h)⟩
    · exact ⟨fun h => (nomatch h), fun n h => (nomatch h), fun r q _ h => (nomatch h)⟩
  · rcases loaded_one_image hij hx hy with rfl | rfl
    · cases hr
    · cases hq
  · rcases loaded_one_image hij hx hy with rfl | rfl
    · cases hr
    · cases hq
theorem fenceWaits_recordsSound : fenceWaits.recordsSound := by
  refine ⟨fun x hx => ?_, fun a h => (nomatch h)⟩
  rcases mem_loaded hx with rfl | rfl
  · refine ⟨fun r hr => ?_, fun r hr => (nomatch hr)⟩
    obtain rfl : curve701 = r := Option.some.inj hr
    refine ⟨by decide, by decide, by decide, by decide, fun m hm => ?_, fun cap h => (nomatch h), fun c hc => ?_⟩
    · obtain rfl : ({ id := 4101, position := 501000 } : Marker) = m := Option.some.inj hm
      unfold Marker.sound; decide
    · obtain rfl := Body.curve.inj hc
      refine ⟨by decide, by decide, by decide, by decide, fun b h => (nomatch h), by unfold profileCountFits; decide,
        by unfold profileCountFits; decide, Or.inr ⟨rfl, rfl, by decide⟩, Or.inr ⟨rfl, rfl, by decide⟩⟩
  · exact ⟨fun r h => (nomatch h), fun r h => (nomatch h)⟩
theorem fenceWaits_healthSound : fenceWaits.healthSound := by
  refine ⟨rfl, fun h hh => ?_⟩
  obtain rfl := (List.mem_replicate.1 (show h ∈ List.replicate 16 CarHealth.clear from hh)).2
  exact ⟨by decide, Nat.zero_le 95⟩
theorem fenceWaits_positionSound : fenceWaits.positionSound := by
  refine ⟨by decide, by decide, by decide, by decide, by decide, by decide, by decide, by decide, fun h => ?_, fun h => ?_,
    by decide, by decide, fun h => ?_⟩
  · cases h
  · cases h
  · cases h
theorem fenceWaits_modeSound : fenceWaits.modeSound :=
  ⟨fun h => (nomatch h), fun _ => ⟨rfl, rfl, 20, rfl, by decide, by decide⟩, by decide, by decide⟩
theorem fenceWaits_leanSound : fenceWaits.leanSound := by
  refine ⟨rfl, fun c hc => ?_, fun f h => (nomatch h)⟩
  obtain rfl := (List.mem_replicate.1 (show c ∈ List.replicate 16 CarOutput.clear from hc)).2
  exact ⟨by decide, by decide⟩
theorem fenceWaits_busSound : fenceWaits.busSound := by
  refine ⟨⟨fun h => (nomatch h), ?_⟩, fun e h => (nomatch h), fun k h => (nomatch h), fun k h => (nomatch h)⟩
  rintro (h | h | h) <;> cases h
theorem fenceWaits_settingsSound : fenceWaits.settingsSound := by
  refine ⟨fun c hc => ?_, by unfold Limits.sound; decide, by decide, ⟨by decide, fun e h => (nomatch h)⟩,
    fun p h => (nomatch h)⟩
  obtain rfl : train = c := Option.some.inj hc
  exact ⟨by decide, by decide, by decide, by decide, by decide, by decide, by decide, by decide⟩
theorem fenceWaits_portSound : fenceWaits.portSound :=
  ⟨⟨rfl, rfl⟩, trivial, rfl, fun _ => rfl, by decide, by decide, by decide, by decide⟩
theorem meets_PoolIsConserved : fenceWaits.poolSound ∧ ∃ t, step fenceWaits = .next t := ⟨fenceWaits_poolSound, _, rfl⟩
theorem meets_ViewLawsHold : fenceWaits.viewSound ∧ ∃ t, step fenceWaits = .next t := ⟨fenceWaits_viewSound, _, rfl⟩
theorem meets_RecordsStaySound : fenceWaits.recordsSound ∧ ∃ t, step fenceWaits = .next t := ⟨fenceWaits_recordsSound, _, rfl⟩
theorem meets_HealthStaysInAgreement : fenceWaits.healthSound ∧ ∃ t, step fenceWaits = .next t := ⟨fenceWaits_healthSound, _, rfl⟩
theorem meets_PositionStaysSound : fenceWaits.positionSound ∧ ∃ t, step fenceWaits = .next t := ⟨fenceWaits_positionSound, _, rfl⟩
theorem meets_ModesKeepTheirPromise : fenceWaits.modeSound ∧ ∃ t, step fenceWaits = .next t := ⟨fenceWaits_modeSound, _, rfl⟩
theorem meets_LeanStaysWithinItsBound : fenceWaits.leanSound ∧ ∃ t, step fenceWaits = .next t := ⟨fenceWaits_leanSound, _, rfl⟩
theorem meets_SettingsStaySound : fenceWaits.settingsSound ∧ ∃ t, step fenceWaits = .next t := ⟨fenceWaits_settingsSound, _, rfl⟩
theorem meets_PortStaysSound : fenceWaits.portSound ∧ ∃ t, step fenceWaits = .next t := ⟨fenceWaits_portSound, _, rfl⟩
theorem meets_BusStaysInStep : fenceWaits.modeSound ∧ fenceWaits.busSound ∧ ∃ t, step fenceWaits = .next t :=
  ⟨fenceWaits_modeSound, fenceWaits_busSound, _, rfl⟩

/-! #### Mode commands -/

theorem meets_StartBeginsCycling :
    (fresh.takesEvery .start ∧ fresh.mode.mode = .config ∧ fresh.demand.composition = none)
      ∧ composed.takesEvery .start ∧ composed.mode.mode = .config ∧ composed.demand.composition = some train :=
  ⟨⟨idle_takes _ rfl rfl rfl, rfl, rfl⟩, idle_takes _ rfl rfl rfl, rfl, rfl⟩
theorem meets_RunAndStandbyChangeTheMode :
    (loaded.takesEvery .run ∧ loaded.mode.mode ≠ .config ∧ loaded.mode.mode = .running)
      ∧ ((inMode .hold 0).takesEvery .run ∧ (inMode .hold 0).mode.mode ≠ .config ∧ (inMode .hold 0).mode.mode ≠ .running)
      ∧ ((inMode .standby 0).takesEvery .stby ∧ (inMode .standby 0).mode.mode = .standby)
      ∧ loaded.takesEvery .stby ∧ loaded.mode.mode ≠ .standby :=
  ⟨⟨idle_takes _ rfl rfl rfl, by decide, rfl⟩, ⟨idle_takes _ rfl rfl rfl, by decide, by decide⟩, ⟨idle_takes _ rfl rfl rfl, rfl⟩,
    idle_takes _ rfl rfl rfl, by decide⟩
theorem meets_HoldSetsItsDistance :
    loaded.takesEvery .hold ∧ loaded.mode.mode = .running ∧ 5000 < 5001 ∧ 5000 ≤ 5000 :=
  ⟨idle_takes _ rfl rfl rfl, rfl, by decide, by decide⟩
theorem meets_StopReturnsToConfig :
    (composed.takesEvery .stop ∧ composed.mode.mode = .config)
      ∧ ((withManual (inMode .standby 0) (.waiting 1)).takesEvery .stop
        ∧ (withManual (inMode .standby 0) (.waiting 1)).mode.mode = .standby
        ∧ (withManual (inMode .standby 0) (.waiting 1)).poll.manual = .waiting 1)
      ∧ (inMode .hold 0).takesEvery .stop ∧ (inMode .hold 0).mode.mode = .hold
      ∧ ∀ k, (inMode .hold 0).poll.manual ≠ .waiting k :=
  ⟨⟨idle_takes _ rfl rfl rfl, rfl⟩, ⟨idle_takes _ rfl rfl rfl, rfl, rfl⟩, idle_takes _ rfl rfl rfl, rfl, fun _ h => (nomatch h)⟩
theorem meets_ResetWaitsForItsAnswer :
    loaded.takesEvery .reset
      ∧ ((after (.reset (.exact ())) loaded).resetHeld = false
        ∧ (after (.reset (.exact ())) loaded).link.phase = .answering
        ∧ (after (.reset (.exact ())) loaded).mode.resetStage ≠ .none)
      ∧ ((answering loaded).link.phase = .answering ∧ (answering loaded).mode.resetStage = .none)
      ∧ (loaded.resetHeld = false ∧ loaded.link.phase ≠ .answering)
      ∧ loaded.mode.resetStage ≠ .due :=
  ⟨idle_takes _ rfl rfl rfl, ⟨rfl, rfl, by decide⟩, ⟨rfl, rfl⟩, ⟨rfl, by decide⟩, by decide⟩
theorem meets_ReadsReportAndChangeNothing :
    (loaded.takesEvery .rdpos ∧ loaded.takesEvery .rdstat)
      ∧ (holding 0).mode.mode = .hold ∧ (holding 0).mode.holdDistance ≠ 0
      ∧ (fresh.takesEvery .rdcomp ∧ fresh.demand.composition = none)
      ∧ (loaded.takesEvery .rdcomp ∧ loaded.demand.composition = some train
        ∧ train.cars[2]? = some { address := 13, offset := 6000 })
      ∧ (loaded.takesEvery .rdcar ∧ 16 < 17)
      ∧ (loaded.demand.cars[16 - 1]? = some CarOutput.clear ∧ loaded.health[16 - 1]? = some CarHealth.clear
        ∧ train.cars.length < 16)
      ∧ loaded.demand.cars[1 - 1]? = some CarOutput.clear ∧ loaded.health[1 - 1]? = some CarHealth.clear
      ∧ train.cars[1 - 1]? = some { address := 11, offset := 1000 } :=
  ⟨⟨idle_takes _ rfl rfl rfl, idle_takes _ rfl rfl rfl⟩, rfl, by decide, ⟨idle_takes _ rfl rfl rfl, rfl⟩,
    ⟨idle_takes _ rfl rfl rfl, rfl, rfl⟩, ⟨idle_takes _ rfl rfl rfl, by decide⟩, ⟨rfl, rfl, by decide⟩, rfl, rfl, rfl⟩

/-! #### Position commands, odometer and markers -/

theorem meets_SetcalAndSetposMoveTheLock :
    (composed.takesEvery .setcal ∧ composed.mode.mode = .config)
      ∧ ((inMode .standby 0).takesEvery .setcal ∧ (inMode .standby 0).mode.mode = .standby)
      ∧ 15 < 16 ∧ 4096 < 4097 ∧ (16 ≤ 16 ∧ 16 ≤ 4096) ∧ 16 ≤ 4096 ∧ 4096 ≤ 4096 :=
  ⟨⟨idle_takes _ rfl rfl rfl, rfl⟩, ⟨idle_takes _ rfl rfl rfl, rfl⟩, by decide⟩
theorem meets_SetcalAndSetposMoveTheLock_position :
    (composed.takesEvery .setpos ∧ composed.mode.mode ≠ .running)
      ∧ (locked (inMode .hold 0) .doubt 0 0).takesEvery .setpos ∧ (locked (inMode .hold 0) .doubt 0 0).mode.mode ≠ .running :=
  ⟨⟨idle_takes _ rfl rfl rfl, by decide⟩, idle_takes _ rfl rfl rfl, by decide⟩
theorem meets_SetfixReplacesWindowAndLimit :
    loaded.takesEvery .setfix ∧ 9 < 10 ∧ 5000 < 5001 ∧ 65535 < 65536
      ∧ (10 ≤ 10 ∧ 10 ≤ 5000 ∧ 65535 ≤ 65535) ∧ (10 ≤ 5000 ∧ 5000 ≤ 5000 ∧ 0 ≤ 65535)
      ∧ ((locked loaded .locked (101 * 256) 0).position.lock = .locked ∧ 1 ≠ 0
        ∧ 1 * 100 < (locked loaded .locked (101 * 256) 0).position.fixDistance / 256)
      ∧ ¬ 1 * 100 < (locked loaded .locked (100 * 256 + 255) 0).position.fixDistance / 256 :=
  ⟨idle_takes _ rfl rfl rfl, by decide, by decide, by decide, by decide, by decide, by decide, by decide⟩
theorem meets_PulseMovesTheTrain :
    loaded.resetHeld = false
      ∧ ((holding 19999).mode.mode = .hold
        ∧ ¬ (holding 19999).mode.holdDistance * 100 < min ((holding 19999).mode.holdTravelled + 256) topPosition / 256)
      ∧ (holding 20000).mode.holdDistance * 100 < min ((holding 20000).mode.holdTravelled + 256) topPosition / 256
      ∧ (locked loaded .locked (100 * 256) 1).position.lock = .locked
      ∧ (locked loaded .locked (100 * 256) 1).position.intervalLimit * 100
        < min ((locked loaded .locked (100 * 256) 1).position.fixDistance + 256) topPosition / 256 :=
  ⟨rfl, ⟨rfl, by decide⟩, by decide, rfl, by decide⟩
theorem meets_ExpiriesActWhenPassed :
    ((locked loaded .locked (101 * 256) 1).resetHeld = false
        ∧ (locked loaded .locked (101 * 256) 1).position.lock = .locked
        ∧ (locked loaded .locked (101 * 256) 1).position.intervalLimit ≠ 0
        ∧ (locked loaded .locked (101 * 256) 1).position.intervalLimit * 100
          < (locked loaded .locked (101 * 256) 1).position.fixDistance / 256)
      ∧ ¬ (locked loaded .locked (100 * 256) 1).position.intervalLimit * 100
          < (locked loaded .locked (100 * 256) 1).position.fixDistance / 256
      ∧ ((holding 20001).mode.mode = .hold ∧ (holding 20001).mode.holdDistance ≠ 0
        ∧ (holding 20001).mode.holdDistance * 100 < (holding 20001).mode.holdTravelled / 256)
      ∧ ¬ (holding 20000).mode.holdDistance * 100 < (holding 20000).mode.holdTravelled / 256 := by decide
theorem meets_StrobesLatchAndMarkerBytesGather :
    (fresh.resetHeld = false ∧ fresh.demand.composition = none)
      ∧ (loaded.demand.composition = some train ∧ loaded.demand.lead = .endA)
      ∧ (loaded.position.reception = none ∧ 0xA4#8 ≠ 0xA5#8)
      ∧ (withReception loaded [0xA5#8]).position.reception = some { bytes := [0xA5#8], stopBad := false }
      ∧ (withReception loaded (markerBytes.take 4)).position.reception
        = some { bytes := markerBytes.take 4, stopBad := false }
      ∧ (markerBytes.take 4).length < 5 :=
  ⟨⟨rfl, rfl⟩, ⟨rfl, rfl⟩, ⟨rfl, by decide⟩, rfl, rfl, by decide⟩

/-- The reception of the fixing states. -/
def lastByteComing : MarkerReception := { bytes := markerBytes.take 5, stopBad := false }

/-- The antenna position of the fixing states, for an error. -/
theorem fixing_reception (lock : Lock) (error : Int) :
    (fixing lock error).resetHeld = false ∧ (fixing lock error).position.reception = some lastByteComing
      ∧ lastByteComing.bytes.length = 5 ∧ (fixing lock error).position.latch = some (501000 - error)
      ∧ (fixing lock error).position.window = 300 := ⟨rfl, rfl, rfl, rfl, rfl⟩

/-- The message of the fixing states is good and carries marker 4101. -/
theorem fixing_message :
    checkOf ((lastByteComing.bytes ++ [lastMarkerByte]).take 4) = wordAt (lastByteComing.bytes ++ [lastMarkerByte]) 4
      ∧ 4101 = (byteAt (lastByteComing.bytes ++ [lastMarkerByte]) 1).toNat
        + 256 * (byteAt (lastByteComing.bytes ++ [lastMarkerByte]) 2).toNat
        + 65536 * (byteAt (lastByteComing.bytes ++ [lastMarkerByte]) 3).toNat := by decide +kernel

/-- Slot 0 of the fixing states is the lowest whose live image carries marker 4101. -/
theorem fixing_slot (lock : Lock) (error : Int) :
    (fixing lock error).table.lowestAt (fun _ y => ∃ q l, y.live = some q ∧ q.marker = some l ∧ l.id = 4101) 0
      (liveSlot curve701 .armed) :=
  lowest_zero rfl ⟨curve701, _, rfl, rfl, rfl⟩

theorem meets_MarkerMessageIsJudged :
    (fixing .locked 300).resetHeld = false ∧ (fixing .locked 300).position.reception = some lastByteComing
      ∧ lastByteComing.bytes.length = 5 ∧ lastByteComing.stopBad = false
      ∧ checkOf ((lastByteComing.bytes ++ [lastMarkerByte]).take 4)
        = wordAt (lastByteComing.bytes ++ [lastMarkerByte]) 4
      ∧ (fixing .locked 300).position.latch = some 500700
      ∧ (fixing .locked 300).table.lowestAt (fun _ y => ∃ q l, y.live = some q ∧ q.marker = some l ∧ l.id = 4101) 0
        (liveSlot curve701 .armed)
      ∧ (liveSlot curve701 .armed).live = some curve701 ∧ curve701.marker = some { id := 4101, position := 501000 }
      ∧ (300 : Int) = ((501000 : Nat) : Int) - 500700 :=
  ⟨rfl, rfl, rfl, rfl, fixing_message.1, rfl, fixing_slot _ _, rfl, rfl, by decide⟩
theorem meets_MarkerMessageIsJudged_failed :
    (true = true ∧ checkOf ((lastByteComing.bytes ++ [0x00#8]).take 4) ≠ wordAt (lastByteComing.bytes ++ [0x00#8]) 4) := by
  decide +kernel
theorem meets_MarkerMessageIsJudged_unlatched :
    (withReception loaded (markerBytes.take 5)).position.latch = none
      ∧ (withReception loaded (markerBytes.take 5)).position.reception = some lastByteComing := ⟨rfl, rfl⟩
theorem meets_MarkerMessageIsJudged_unmatched :
    (withSlots (fixing .locked 0) []).table.noSlot
      (fun _ x => ∃ r k, x.live = some r ∧ r.marker = some k ∧ k.id = 4101) :=
  noSlot_empty _ _ fun _ h => by obtain ⟨r, k, h, _⟩ := h; cases h
theorem meets_MarkerMessageIsJudged_applied :
    ((501000 : Nat) : Int) - (501000 - 300) = 300 ∧ (300 : Int).natAbs ≤ (fixing .locked 300).position.window
      ∧ (fixing .noFix 5000).position.lock = .noFix
      ∧ ((fixing .doubt 680).setPosition { (fixing .doubt 680).position with candidate := some 380 }).position.lock = .doubt
      ∧ ((680 : Int) - 380).natAbs ≤ (fixing .doubt 680).position.window := by decide
theorem meets_MarkerMessageIsJudged_refused :
    ¬ ((fixing .locked 301).position.lock = .noFix ∨ (301 : Int).natAbs ≤ (fixing .locked 301).position.window
      ∨ (fixing .locked 301).position.lock = .doubt
        ∧ ∃ c, (fixing .locked 301).position.candidate = some c ∧ (301 - c).natAbs ≤ (fixing .locked 301).position.window) := by
  rintro (h | h | ⟨h, _⟩) <;> exact absurd h (by decide)

/-! #### Record commands -/

/-- The fields of OPENR for a LIMIT of cap 250. -/
def limitFieldsOpen : OpenFields :=
  { openFields with kind := .named .limit, angleOrCap := 250, nIn := 0, nOut := 0, markerPresent := false }

theorem meets_AssemblyIsOpenedAndAbandoned_curve :
    loaded.takesEvery .openr ∧ loaded.mode.mode ≠ .config ∧ loaded.table.assembly = none
      ∧ ((∃ i, openFields.intent = .named i) ∧ openFields.key.toNat ≠ 0 ∧ openFields.sectionTag ≤ 4095
        ∧ openFields.angleOrCap ≤ 800
        ∧ (openFields.markerPresent = true → 1 ≤ openFields.markerId ∧ openFields.markerId ≤ 16777215))
      ∧ openFields.kind = .named .curve ∧ (∃ h, openFields.hand = .named h)
      ∧ openFields.e0.toNat ≤ openFields.e1.toNat ∧ openFields.e1.toNat ≤ openFields.e2.toNat
      ∧ openFields.e2.toNat ≤ openFields.e3.toNat ∧ openFields.e0.toNat < openFields.e3.toNat
      ∧ openFields.bandPresent = false ∧ (openFields.nIn ≠ 1 ∧ openFields.nIn ≤ 16) ∧ openFields.nOut ≠ 1
      ∧ openFields.nOut ≤ 16 :=
  ⟨idle_takes _ rfl rfl rfl, by decide, rfl, ⟨⟨_, rfl⟩, by decide, by decide, by decide, by decide⟩, rfl, ⟨_, rfl⟩, by decide⟩
theorem meets_AssemblyIsOpenedAndAbandoned_limit :
    (∃ i, limitFieldsOpen.intent = .named i) ∧ limitFieldsOpen.markerPresent = false
      ∧ limitFieldsOpen.kind = .named .limit ∧ limitFieldsOpen.e0.toNat < limitFieldsOpen.e3.toNat
      ∧ limitFieldsOpen.bandPresent = false ∧ limitFieldsOpen.nIn = 0 ∧ limitFieldsOpen.nOut = 0 :=
  ⟨⟨_, rfl⟩, rfl, rfl, by decide⟩
theorem meets_AssemblyIsOpenedAndAbandoned_ends :
    reply (.openr (.exact { openFields with angleOrCap := 801 })) loaded = some (.badParam, .empty)
      ∧ reply (.openr (.exact { openFields with angleOrCap := 800, sectionTag := 4095 })) loaded = some (.done, .value 6)
      ∧ reply (.openr (.exact { openFields with nIn := 16, nOut := 16 })) loaded = some (.done, .value 32)
      ∧ reply (.openr (.exact { openFields with nIn := 17 })) loaded = some (.badParam, .empty)
      ∧ reply (.openr (.exact { openFields with intent := .other })) loaded = some (.badParam, .empty)
      ∧ reply (.openr (.exact limitFieldsOpen)) loaded = some (.done, .value 0)
      ∧ reply (.openr (.exact limitFieldsOpen)) (assembling loaded []) = some (.assemblyOpen, .empty) := by decide
theorem meets_AssemblyIsOpenedAndAbandoned_abandon :
    loaded.takesEvery .abandr ∧ loaded.mode.mode ≠ .config ∧ loaded.table.assembly = none
      ∧ (assembling loaded []).takesEvery .abandr ∧ (assembling loaded []).table.assembly.isSome :=
  ⟨idle_takes _ rfl rfl rfl, by decide, rfl, idle_takes _ rfl rfl rfl, rfl⟩

/-- The assembly of an assembling state. -/
def assembly701 (values : List Nat) : Assembly where
  intent := .new
  key := 701
  sectionTag := 163
  e0 := 500000
  e3 := 508000
  body := .curve { e1 := 502000, e2 := 506000, hand := .right, angle := 400, band := none, nIn := 3, nOut := 3 }
  marker := some { id := 4101, position := 501000 }
  values := values
  writePosition := values.length

theorem meets_ValuesAreWrittenInOrder :
    (assembling loaded [0, 512]).takesEvery .putp ∧ (assembling loaded [0, 512]).takesEvery .contp
      ∧ (assembling loaded [0, 512]).mode.mode ≠ .config
      ∧ (List.replicate 30 (0 : Word)) ≠ [] ∧ 29 < (List.replicate 30 (0 : Word)).length
      ∧ (List.replicate 29 (0 : Word)).length ≤ 29
      ∧ loaded.table.assembly = none
      ∧ (assembling loaded [0, 512]).table.assembly = some (assembly701 [0, 512])
      ∧ (assembly701 [0, 512]).writePosition ≤ (assembly701 [0, 512]).values.length
      ∧ (assembly701 [0, 512]).values.length ≤ (assembly701 [0, 512]).total :=
  ⟨idle_takes _ rfl rfl rfl, idle_takes _ rfl rfl rfl, by decide, by decide, by decide, by decide, rfl, rfl, by decide, by decide⟩

/-- RUNNING at 499,500 cm with slots given, a whole assembly of curve 701 and a pool count. -/
def closing (slots : List Slot) (a : Assembly) (free : Nat) : State :=
  let s := withSlots (inMode .running 499500) slots
  s.setTable { s.table with assembly := some a, poolFree := free }

/-- The assembly with its six values. -/
def whole701 : Assembly := assembly701 profiles701

/-- The same, to amend key 701. -/
def amend701 : Assembly := { whole701 with intent := .amend }

/-- The assembly is complete and its profiles fit. -/
theorem whole_fits : whole701.complete ∧ whole701.profilesFit ∧ amend701.complete ∧ amend701.profilesFit := by
  refine ⟨?_, ⟨Or.inr ⟨rfl, rfl, ?_⟩, Or.inr ⟨rfl, rfl, ?_⟩⟩, ?_, ⟨Or.inr ⟨rfl, rfl, ?_⟩, Or.inr ⟨rfl, rfl, ?_⟩⟩⟩
  · show whole701.total ≤ whole701.values.length; decide
  · decide
  · decide
  · show amend701.total ≤ amend701.values.length; decide
  · decide
  · decide

/-- The record does not lie behind the rear car. -/
theorem not_behind (slots : List Slot) (a : Assembly) (free : Nat) (h3 : a.record.e3 = 508000) :
    ¬ (closing slots a free).behindRear a.record := by
  have hs : (closing slots a free).rearPosition (closing slots a free).leadCm
      = (inMode .running 499500).rearPosition (inMode .running 499500).leadCm := rfl
  have hp : (inMode .running 499500).rearPosition (inMode .running 499500).leadCm = some 493500 := by decide
  rintro ⟨rear, hr, h⟩
  obtain rfl : (493500 : Int) = rear := Option.some.inj (hp.symm.trans (hs.symm.trans hr))
  have h' : (a.record.e3 : Int) ≤ 493500 := h
  omega

theorem meets_CloserStagesTheRecord_new :
    (closing [] whole701 6).takesEvery .closer ∧ (closing [] whole701 6).mode.mode ≠ .config
      ∧ (closing [] whole701 6).table.assembly = some whole701 ∧ whole701.complete ∧ whole701.profilesFit
      ∧ (closing [] whole701 6).table.noSlot (otherHasMarker none whole701.record)
      ∧ ¬ (closing [] whole701 6).behindRear whole701.record
      ∧ (closing [] whole701 6).table.noSlot (otherOverlaps none whole701.record)
      ∧ whole701.intent = .new ∧ (closing [] whole701 6).table.noSlot (viewHasKey whole701.key)
      ∧ (closing [] whole701 6).table.lowestAt (fun _ y => y.state = .free) 0 Slot.freed
      ∧ whole701.total ≤ (closing [] whole701 6).table.poolFree + 0 :=
  ⟨idle_takes _ rfl rfl rfl, by decide, rfl, whole_fits.1, whole_fits.2.1,
    noSlot_empty (inMode .running 499500) _ (freed_marker _ _), not_behind _ _ _ rfl,
    noSlot_empty (inMode .running 499500) _ (freed_overlap _ _), rfl,
    noSlot_empty (inMode .running 499500) _ (freed_key _), lowest_zero rfl rfl, by decide⟩

/-- A slot with a live image of curve 701 and another pending. -/
def amendedSlot : Slot := { liveSlot curve701 .armed with pending := .image curve701 }

theorem meets_CloserStagesTheRecord_amend :
    (closing [amendedSlot] amend701 500).takesEvery .closer
      ∧ (closing [amendedSlot] amend701 500).mode.mode ≠ .config
      ∧ (closing [amendedSlot] amend701 500).table.assembly = some amend701 ∧ amend701.complete ∧ amend701.profilesFit
      ∧ ¬ (closing [amendedSlot] amend701 500).behindRear amend701.record ∧ amend701.intent = .amend
      ∧ (closing [amendedSlot] amend701 500).table.noSlot (otherHasMarker (some 0) amend701.record)
      ∧ (closing [amendedSlot] amend701 500).table.noSlot (otherOverlaps (some 0) amend701.record)
      ∧ (closing [amendedSlot] amend701 500).table.lowestAt (viewHasKey amend701.key) 0 amendedSlot
      ∧ amendedSlot.pending ≠ .withdrawal ∧ amendedSlot.state ≠ .fading
      ∧ (∀ r, amendedSlot.view = some r → r.kind = amend701.record.kind) ∧ 6 = imagePoints amendedSlot.pendingImage := by
  refine ⟨idle_takes _ rfl rfl rfl, by decide, rfl, whole_fits.2.2.1, whole_fits.2.2.2, not_behind _ _ _ rfl, rfl,
    noSlot_one (inMode .running 499500) _ _ (fun h => h.1 rfl) (freed_marker _ _),
    noSlot_one (inMode .running 499500) _ _ (fun h => h.1 rfl) (freed_overlap _ _),
    lowest_zero rfl ⟨curve701, rfl, rfl⟩, by decide, by decide, fun r hr => ?_, rfl⟩
  cases hr; rfl

/-- What every clause of the statement asks of the state, for any slots, assembly and pool count; for an assembly with the
intent NEW, no slot of its own, and the condition on the key as it stands. -/
theorem meets_CloserRefusesInOrder (slots : List Slot) (a : Assembly) (free : Nat) (h : a.intent = .new) :
    (closing slots a free).takesEvery .closer ∧ (closing slots a free).mode.mode ≠ .config
      ∧ (closing slots a free).table.assembly = some a
      ∧ (∃ (own : Option Nat) (keyOk : Prop),
        (a.intent = .new → own = none ∧ (keyOk ↔ (closing slots a free).table.noSlot (viewHasKey a.key)))
        ∧ (a.intent = .amend → (∀ n x, (closing slots a free).table.lowestAt (viewHasKey a.key) n x → own = some n))) :=
  ⟨idle_takes _ rfl rfl rfl, fun hm => (nomatch hm), rfl, none, _, fun _ => ⟨rfl, Iff.rfl⟩, fun hi => by
    rw [h] at hi; cases hi⟩
theorem meets_CloserRefusesInOrder_places_and_profiles :
    loaded.takesEvery .closer ∧ loaded.mode.mode ≠ .config ∧ loaded.table.assembly = none
      ∧ ¬ (assembly701 [0, 512]).complete
      ∧ (assembly701 [0, 512, 1024, 1024, 512, 10]).complete
      ∧ ¬ (assembly701 [0, 512, 1024, 1024, 512, 10]).profilesFit
      ∧ ¬ profileFits 0 1024 (assembly701 [0, 1025, 1024, 1024, 512, 0]).entryProfile := by
  refine ⟨idle_takes _ rfl rfl rfl, by decide, rfl, ?_, ?_, fun h => ?_, fun h => ?_⟩
  · show ¬ (assembly701 [0, 512]).total ≤ (assembly701 [0, 512]).values.length; decide
  · show (assembly701 [0, 512, 1024, 1024, 512, 10]).total ≤ (assembly701 [0, 512, 1024, 1024, 512, 10]).values.length
    decide
  · rcases h.2 with h | ⟨_, h, _⟩
    · cases h
    · exact absurd h (by decide)
  · rcases h with h | ⟨_, _, h⟩
    · cases h
    · exact absurd h (by decide)
theorem meets_CloserRefusesInOrder_key :
    (closing [liveSlot curve701 .armed] whole701 500).table.lowestAt (viewHasKey whole701.key) 0 (liveSlot curve701 .armed)
      ∧ (closing [] amend701 500).table.noSlot (viewHasKey amend701.key)
      ∧ ({ liveSlot curve701 .armed with pending := .withdrawal } : Slot).pending = .withdrawal
      ∧ ({ liveSlot curve701 .active with fade := some 16 } : Slot).state = .fading
      ∧ ∃ r, (liveSlot { limit702 with key := 701 } .armed).view = some r ∧ r.kind ≠ amend701.record.kind :=
  ⟨lowest_zero rfl ⟨curve701, rfl, rfl⟩, noSlot_empty (inMode .running 499500) _ (freed_key _), rfl, rfl,
    { limit702 with key := 701 }, rfl, by decide⟩

/-- A record of another key with the marker of curve 701. -/
def sameMarker : Slot := liveSlot { limit702 with marker := some { id := 4101, position := 0 } } .armed

/-- A record of another key with the body of curve 701. -/
def sameBody : Slot := liveSlot { curve701 with key := 703, marker := none } .armed

theorem meets_CloserRefusesInOrder_marker_and_overlap :
    (closing [sameMarker] whole701 500).table.lowestAt (otherHasMarker none whole701.record) 0 sameMarker
      ∧ (closing [sameMarker] whole701 500).table.noSlot (viewHasKey whole701.key)
      ∧ (closing [sameBody] whole701 500).table.lowestAt (otherOverlaps none whole701.record) 0 sameBody
      ∧ (closing [sameBody] whole701 500).table.noSlot (otherHasMarker none whole701.record)
      ∧ (closing [sameBody] whole701 500).table.noSlot (viewHasKey whole701.key) := by
  refine ⟨lowest_zero rfl ⟨by decide, _, _, _, rfl, rfl, rfl, rfl⟩, noSlot_one (inMode .running 499500) _ _ ?_ (freed_key _),
    lowest_zero rfl ⟨by decide, _, _, _, rfl, rfl, rfl, Or.inl (by decide)⟩,
    noSlot_one (inMode .running 499500) _ _ ?_ (freed_marker _ _),
    noSlot_one (inMode .running 499500) _ _ ?_ (freed_key _)⟩
  · rintro ⟨r, h, hk⟩; cases h; exact absurd hk (by decide)
  · rintro ⟨_, q, m, n, h, _, hn, _⟩; cases h; cases hn
  · rintro ⟨r, h, hk⟩; cases h; exact absurd hk (by decide)

/-- The same table with the lead far ahead, so that the record lies behind the rear car at 508,000 cm. -/
def closingBehind : State :=
  let s := withSlots (inMode .running 514000) []
  s.setTable { s.table with assembly := some whole701 }

theorem meets_CloserRefusesInOrder_behind :
    closingBehind.behindRear whole701.record ∧ closingBehind.table.noSlot (otherHasMarker none whole701.record)
      ∧ closingBehind.table.noSlot (viewHasKey whole701.key) := by
  refine ⟨⟨508000, rfl, ?_⟩, noSlot_empty (inMode .running 514000) _ (freed_marker _ _),
    noSlot_empty (inMode .running 514000) _ (freed_key _)⟩
  show ((508000 : Nat) : Int) ≤ 508000; decide

/-- A table with every slot taken by records that do not touch curve 701. -/
def closingFull : State :=
  closing (List.replicate 64 (stagedSlot { limit702 with e0 := 0, e3 := 1 })) whole701 512

/-- The slots of the full table. -/
theorem slot_full {j : Nat} {y : Slot} (h : closingFull.table.slots[j]? = some y) :
    y = stagedSlot { limit702 with e0 := 0, e3 := 1 } := by
  rcases slot_of_withSlots (s := inMode .running 499500) h with h' | h'
  · exact (List.mem_replicate.1 (List.mem_of_getElem? h')).2
  · obtain ⟨hj, _⟩ := List.getElem?_eq_some_iff.1 h
    have hlen : closingFull.table.slots = List.replicate 64 (stagedSlot { limit702 with e0 := 0, e3 := 1 }) := rfl
    rw [hlen] at h
    exact (List.mem_replicate.1 (List.mem_of_getElem? h)).2

theorem meets_CloserRefusesInOrder_room :
    closingFull.table.noSlot (fun _ y => y.state = .free) ∧ closingFull.table.noSlot (viewHasKey whole701.key)
      ∧ closingFull.table.noSlot (otherHasMarker none whole701.record)
      ∧ closingFull.table.noSlot (otherOverlaps none whole701.record) := by
  refine ⟨fun j y h => ?_, fun j y h => ?_, fun j y h => ?_, fun j y h => ?_⟩ <;> rw [slot_full h]
  · show ¬ (stagedSlot { limit702 with e0 := 0, e3 := 1 }).state = .free
    decide
  · rintro ⟨r, h, hk⟩; cases h; exact absurd hk (by decide)
  · rintro ⟨_, q, m, n, h, _, hn, _⟩; cases h; cases hn
  · rintro ⟨_, q, c, d, h, _, hn, _⟩; cases h; cases hn
theorem meets_CloserRefusesInOrder_pool :
    (closing [] whole701 5).table.poolFree < whole701.total
      ∧ (closing [] whole701 5).table.lowestAt (fun _ y => y.state = .free) 0 Slot.freed
      ∧ (closing [amendedSlot] amend701 0).table.poolFree + imagePoints amendedSlot.pendingImage < 7 :=
  ⟨by decide, lowest_zero rfl rfl, by decide⟩

/-- Loaded with other slots. -/
def holdingSlots (slots : List Slot) : State := withSlots (inMode .running 499500) slots

theorem meets_WdrawFollowsItsCases :
    loaded.takesEvery .wdraw ∧ loaded.mode.mode ≠ .config ∧ 1 < 2 ∧ 1 ≤ 1
      ∧ (holdingSlots []).table.noSlot (viewHasKey 701)
      ∧ (holdingSlots [liveSlot curve701 .armed]).table.lowestAt (viewHasKey 701) 0 (liveSlot curve701 .armed)
      ∧ (liveSlot curve701 .armed).state = .armed ∧ (liveSlot curve701 .active).state = .active
      ∧ (stagedSlot curve701).state = .staged
      ∧ ({ liveSlot curve701 .active with fade := some 16 } : Slot).state = .fading
      ∧ ({ liveSlot curve701 .armed with pending := .withdrawal } : Slot).pending = .withdrawal :=
  ⟨idle_takes _ rfl rfl rfl, by decide, by decide, by decide, noSlot_empty (inMode .running 499500) _ (freed_key _),
    lowest_zero rfl ⟨curve701, rfl, rfl⟩, by decide⟩

/-- An amended slot whose live image has the marker and body of curve 701 and whose pending image has neither. -/
def movedSlot : Slot :=
  { liveSlot curve701 .armed with pending := .image { limit702 with key := 701 } }

theorem meets_WdrawFollowsItsCases_clashes :
    movedSlot.pending = .image { limit702 with key := 701 } ∧ movedSlot.live = some curve701
      ∧ movedSlot.pending ≠ .withdrawal ∧ movedSlot.state = .armed
      ∧ (holdingSlots [movedSlot]).table.lowestAt (viewHasKey 701) 0 movedSlot
      ∧ (holdingSlots [movedSlot, sameMarker]).table.lowestAt (otherHasMarker (some 0) curve701) 1 sameMarker
      ∧ (holdingSlots [movedSlot, sameBody]).table.lowestAt (otherOverlaps (some 0) curve701) 1 sameBody
      ∧ (holdingSlots [movedSlot]).table.noSlot (otherHasMarker (some 0) curve701)
      ∧ (holdingSlots [movedSlot]).table.noSlot (otherOverlaps (some 0) curve701) :=
  ⟨rfl, rfl, by decide, by decide, lowest_zero rfl ⟨_, rfl, rfl⟩,
    lowest_one rfl rfl (fun h => h.1 rfl) ⟨by decide, _, _, _, rfl, rfl, rfl, rfl⟩,
    lowest_one rfl rfl (fun h => h.1 rfl) ⟨by decide, _, _, _, rfl, rfl, rfl, Or.inl (by decide)⟩,
    noSlot_one (inMode .running 499500) _ _ (fun h => h.1 rfl) (freed_marker _ _),
    noSlot_one (inMode .running 499500) _ _ (fun h => h.1 rfl) (freed_overlap _ _)⟩
theorem meets_WdrawFollowsItsCases_overlap_without_marker :
    (holdingSlots [movedSlot, sameBody]).table.noSlot (otherHasMarker (some 0) curve701) := by
  intro j y hy
  rcases slot_of_withSlots hy with h | rfl
  · match j, h with
    | 0, h => cases h; exact fun h => h.1 rfl
    | 1, h => cases h; rintro ⟨_, q, m, n, h, _, hn, _⟩; cases h; cases hn
  · exact freed_marker _ _ _

theorem meets_SectionsAndTableAreWithdrawn :
    loaded.takesEvery .wdsect ∧ loaded.mode.mode ≠ .config
      ∧ 4095 < 4096 ∧ 1 < 2 ∧ 4095 ≤ 4095 ∧ 1 ≤ 1
      ∧ (∃ selected : Slot → Bool, ∀ x,
          selected x = x.view.any fun r => r.sectionTag &&& 4095 = 163 &&& 4095)
      ∧ (∃ count : (WithdrawFinding → Bool) → Nat, ∀ check, count check = loaded.table.slots.zipIdx.countP fun p =>
          true && check (loaded.table.judgeWithdraw p.2 p.1 false))
      ∧ ((inMode .standby 0).takesEvery .clrtab ∧ (inMode .standby 0).mode.mode = .standby)
      ∧ (inMode .hold 0).takesEvery .clrtab ∧ (inMode .hold 0).mode.mode = .hold
      ∧ Slot.freed.state = .free :=
  ⟨idle_takes _ rfl rfl rfl, by decide, by decide, by decide, by decide, by decide, ⟨_, fun _ => rfl⟩, ⟨_, fun _ => rfl⟩,
    ⟨idle_takes _ rfl rfl rfl, rfl⟩, idle_takes _ rfl rfl rfl, rfl, rfl⟩
theorem meets_RecordsAreReadBack :
    loaded.takesEvery .rdrec ∧ loaded.takesEvery .rdslot ∧ (holdingSlots []).table.noSlot (viewHasKey 701)
      ∧ 63 < 64 ∧ 63 ≤ 63 ∧ loaded.table.slots[63]? = some Slot.freed ∧ Slot.freed.live = none ∧ Slot.freed.pending = .none
      ∧ loaded.table.slots[0]? = some (liveSlot curve701 .armed) ∧ (liveSlot curve701 .armed).live = some curve701
      ∧ loaded.table.lowestAt (viewHasKey 701) 0 (liveSlot curve701 .armed)
      ∧ (holdingSlots [stagedSlot limit702]).table.slots[0]? = some (stagedSlot limit702)
      ∧ (stagedSlot limit702).live = none ∧ (stagedSlot limit702).pending = .image limit702
      ∧ limit702.body = .limit 250 ∧ ∃ v, curve701.body = .curve v :=
  ⟨idle_takes _ rfl rfl rfl, idle_takes _ rfl rfl rfl, noSlot_empty (inMode .running 499500) _ (freed_key _), by decide, by decide,
    rfl, rfl, rfl, rfl, rfl, lowest_zero rfl ⟨curve701, rfl, rfl⟩, rfl, rfl, rfl, rfl, _, rfl⟩
theorem meets_FindatShowsThePlace :
    findatState.takesEvery .findat
      ∧ (300 : Int) = (findatState.table.slots.map fun x =>
          x.contribution findatState.demand.limits.band findatState.position.snapshot.speed (3150000 : Int)).sum
      ∧ (∃ x ∈ findatState.table.slots, ∃ r, x.live = some r ∧ r.body = .limit 250 ∧ r.e0 ≤ 3150000 ∧ 3150000 < r.e3)
      ∧ ∀ x ∈ findatState.table.slots, ∀ r n, x.live = some r → r.body = .limit n → r.e0 ≤ 3150000 → 3150000 < r.e3 →
          250 ≤ n := by
  refine ⟨idle_takes _ rfl rfl rfl, by decide, ⟨_, List.mem_of_getElem? (i := 1) rfl, _, rfl, rfl, by decide, by decide⟩,
    fun x hx r n hr hb _ _ => ?_⟩
  rcases mem_withSlots (s := inMode .running 3100000) hx with h | rfl
  · rcases List.mem_cons.1 h with rfl | h
    · cases hr; cases hb
    · obtain rfl := List.mem_singleton.1 h
      cases hr; cases hb; decide
  · cases hr
theorem meets_TsumSummarisesTheTable :
    loaded.takesEvery .tsum ∧ isFarthest loaded.position.travel (loaded.table.reachPlace loaded.position.travel) (some 508000)
      ∧ fresh.takesEvery .tsum ∧ isFarthest fresh.position.travel (fresh.table.reachPlace fresh.position.travel) none := by
  refine ⟨idle_takes _ rfl rfl rfl, ⟨⟨fun h => (nomatch h), fun h => absurd ?_ (h 508000)⟩, fun r hr => ?_⟩,
    idle_takes _ rfl rfl rfl, ⟨⟨fun _ p h => ?_, fun _ => rfl⟩, fun r hr => (nomatch hr)⟩⟩
  · exact Or.inr ⟨liveSlot curve701 .armed, List.mem_of_getElem? (i := 0) rfl, curve701, rfl, rfl⟩
  · obtain rfl : 508000 = r := Option.some.inj hr
    refine ⟨Or.inr ⟨liveSlot curve701 .armed, List.mem_of_getElem? (i := 0) rfl, curve701, rfl, rfl⟩, fun p h => ?_⟩
    rcases h with h | ⟨x, hx, r, hr, rfl⟩
    · cases h
    · rcases mem_loaded (x := x) hx with rfl | rfl
      · obtain rfl : curve701 = r := Option.some.inj hr
        exact Nat.le_refl 508000
      · cases hr
  · rcases h with h | ⟨x, hx, r, hr, _⟩
    · cases h
    · rw [(List.mem_replicate.1 hx).2] at hr; cases hr
theorem meets_CoverDeclaresTheTrackAhead :
    loaded.takesEvery .cover ∧ loaded.mode.mode ≠ .config ∧ loaded.position.travel = .ascending
      ∧ ¬ loaded.position.rp / 256 < (499500#32).toNat ∧ loaded.position.rp / 256 < (499501#32).toNat :=
  ⟨idle_takes _ rfl rfl rfl, by decide, rfl, by decide, by decide⟩

/-! #### Settings, composition, plans, health and attention -/

theorem meets_CycleAndBusSettingsAreReplaced :
    loaded.takesEvery .setcyc
      ∧ (10 ≤ 10 ∧ 10 ≤ 40 ∧ (0 = 0 ∨ 100 ≤ 0 ∧ 0 ≤ 20000)) ∧ (10 ≤ 40 ∧ 40 ≤ 40 ∧ (100 = 0 ∨ 100 ≤ 100 ∧ 100 ≤ 20000))
      ∧ (20000 = 0 ∨ 100 ≤ 20000 ∧ 20000 ≤ 20000)
      ∧ ¬ (10 ≤ 9) ∧ ¬ (41 ≤ 40) ∧ ¬ (99 = 0 ∨ 100 ≤ 99 ∧ 99 ≤ 20000) ∧ ¬ (20001 = 0 ∨ 100 ≤ 20001 ∧ 20001 ≤ 20000) :=
  ⟨idle_takes _ rfl rfl rfl, by decide⟩

/-- A composition of some cars. -/
def consist (cars : List Car) (length reader : Nat) : Composition := { cars := cars, length := length, reader := reader }

/-- The cars of a composition of two, by number. -/
theorem car_of_two {a b car : Car} {k : Nat} (h : [a, b][k]? = some car) : k = 0 ∧ car = a ∨ k = 1 ∧ car = b := by
  match k, h with
  | 0, h => exact Or.inl ⟨rfl, (Option.some.inj h).symm⟩
  | 1, h => exact Or.inr ⟨rfl, (Option.some.inj h).symm⟩

/-- Two cars in order. -/
def inOrder : List Car := [{ address := 1, offset := 0 }, { address := 126, offset := 100 }]
/-- Two cars of one address. -/
def sameAddress : List Car := [{ address := 1, offset := 0 }, { address := 1, offset := 100 }]
/-- Two cars at one offset. -/
def sameOffset : List Car := [{ address := 1, offset := 100 }, { address := 126, offset := 100 }]

theorem meets_SetcompReplacesTheComposition_length :
    fresh.takesEvery .setcomp ∧ fresh.mode.mode = .config
      ∧ (List.replicate 7 (0 : Byte)).length + 1 = 5 + 3 * (1#8).toNat
      ∧ (List.replicate 6 (0 : Byte)).length + 1 ≠ 5 + 3 * (1#8).toNat :=
  ⟨idle_takes _ rfl rfl rfl, rfl, by decide, by decide⟩
theorem meets_SetcompReplacesTheComposition_count :
    (consist [] 0 0).fitsPayload ∧ (consist [] 0 0).cars.length = 0
      ∧ (consist (List.replicate 17 { address := 1, offset := 0 }) 0 0).fitsPayload
      ∧ 16 < (consist (List.replicate 17 { address := 1, offset := 0 }) 0 0).cars.length := by
  unfold Composition.fitsPayload; decide
theorem meets_SetcompReplacesTheComposition_address :
    (consist [{ address := 0, offset := 0 }] 0 0).fitsPayload
      ∧ isLowest (consist [{ address := 0, offset := 0 }] 0 0).badAddress 1
      ∧ isLowest (consist [{ address := 127, offset := 0 }] 0 0).badAddress 1 :=
  ⟨by unfold Composition.fitsPayload; decide, ⟨by decide, ⟨_, rfl, by decide⟩, fun j h1 h2 => by omega⟩, by decide,
    ⟨_, rfl, by decide⟩, fun j h1 h2 => by omega⟩
theorem meets_SetcompReplacesTheComposition_duplicate :
    (consist sameAddress 200 0).fitsPayload ∧ (∀ k, 1 ≤ k → ¬ (consist sameAddress 200 0).badAddress k)
      ∧ isLowest (consist sameAddress 200 0).repeatsAddress 2 := by
  refine ⟨by unfold Composition.fitsPayload; decide, fun k _ hb => ?_, by decide,
    ⟨_, 1, _, rfl, by decide, by decide, rfl, rfl⟩, fun j h1 h2 hr => ?_⟩
  · obtain ⟨car, hc, hb⟩ := hb
    rcases car_of_two hc with ⟨_, rfl⟩ | ⟨_, rfl⟩ <;> exact absurd hb (by decide)
  · obtain ⟨_, i, _, _, h3, h4, _⟩ := hr
    omega
theorem meets_SetcompReplacesTheComposition_order :
    (consist sameOffset 200 0).fitsPayload ∧ (∀ k, 1 ≤ k → ¬ (consist sameOffset 200 0).repeatsAddress k)
      ∧ isLowest (consist sameOffset 200 0).outOfOrder 2 := by
  refine ⟨by unfold Composition.fitsPayload; decide, fun k h1 hr => ?_, by decide,
    ⟨_, _, by decide, rfl, rfl, by decide⟩, fun j h1 h2 hr => ?_⟩
  · obtain ⟨car, j, other, hc, hj, hjk, ho, he⟩ := hr
    rcases car_of_two hc with ⟨h, rfl⟩ | ⟨h, rfl⟩ <;> rcases car_of_two ho with ⟨h', rfl⟩ | ⟨h', rfl⟩
    · omega
    · omega
    · exact absurd he (by decide)
    · omega
  · obtain ⟨_, _, h3, _⟩ := hr
    omega
theorem meets_SetcompReplacesTheComposition_train_length :
    (∀ k, 1 ≤ k → ¬ (consist inOrder 99 0).outOfOrder k) ∧ (consist inOrder 99 0).badLength
      ∧ (consist inOrder 60001 0).badLength ∧ ¬ (consist inOrder 60000 60001).badLength
      ∧ (consist inOrder 60000 60001).length < (consist inOrder 60000 60001).reader
      ∧ (consist inOrder 60000 60001).fitsPayload := by
  refine ⟨fun k h1 hr => ?_, Or.inl ⟨_, rfl, by decide⟩, Or.inr (by decide), ?_, by decide,
    by unfold Composition.fitsPayload; decide⟩
  · obtain ⟨car, before, h2, hc, hb, ho⟩ := hr
    rcases car_of_two hc with ⟨h, rfl⟩ | ⟨h, rfl⟩ <;> rcases car_of_two hb with ⟨h', rfl⟩ | ⟨h', rfl⟩
    · omega
    · omega
    · exact absurd ho (by decide)
    · omega
  · rintro (⟨car, hc, h⟩ | h)
    · obtain rfl : ({ address := 126, offset := 100 } : Car) = car := Option.some.inj hc
      exact absurd h (by decide)
    · exact absurd h (by decide)
theorem meets_SetcompReplacesTheComposition_sound :
    train.sound ∧ train.fitsPayload ∧ (withManual fresh (.inFlight 1)).poll.manual = .inFlight 1
      ∧ (withManual fresh (.waiting 1)).poll.manual = .waiting 1 :=
  ⟨⟨by decide, by decide, by decide, by decide, by decide, by decide, by decide, by decide⟩,
    by unfold Composition.fitsPayload; decide, rfl, rfl⟩
theorem meets_OrientationAndLimitsAreReplaced :
    (fresh.takesEvery .settrav ∧ fresh.mode.mode = .config ∧ (Coded.other : Coded TrainEnd) = .other
        ∧ (Coded.named TrainEnd.endB) = .named TrainEnd.endB)
      ∧ (composed.takesEvery .setlim ∧ composed.mode.mode ≠ .running)
      ∧ ((1 ≤ 1 ∧ 1 ≤ 200) ∧ 800 ≤ 800 ∧ 800 ≤ 800 ∧ 65534 < 65535 ∧ 65535 ≤ 65535 ∧ 100 ≤ 100 ∧ 100 ≤ 5000)
      ∧ ((1 ≤ 200 ∧ 200 ≤ 200) ∧ 0 ≤ 800 ∧ 0 ≤ 800 ∧ 0 < 1 ∧ 1 ≤ 65535 ∧ 100 ≤ 5000 ∧ 5000 ≤ 5000)
      ∧ ¬ (1 ≤ 0) ∧ ¬ (201 ≤ 200) ∧ ¬ (801 ≤ 800) ∧ ¬ (1 < 1) ∧ ¬ (65536 ≤ 65535) ∧ ¬ (100 ≤ 99) ∧ ¬ (5001 ≤ 5000) :=
  ⟨⟨idle_takes _ rfl rfl rfl, rfl, rfl, rfl⟩, ⟨idle_takes _ rfl rfl rfl, by decide⟩, by decide⟩
theorem meets_CycleAndBusSettingsAreReplaced_bus :
    loaded.takesEvery .setbus ∧ (100 ≤ 100 ∧ 100 ≤ 800 ∧ 100 % 100 = 0) ∧ (100 ≤ 800 ∧ 800 ≤ 800 ∧ 800 % 100 = 0)
      ∧ ¬ (100 ≤ 99 ∧ 99 ≤ 800 ∧ 99 % 100 = 0) ∧ ¬ (100 ≤ 900 ∧ 900 ≤ 800 ∧ 900 % 100 = 0)
      ∧ ¬ (100 ≤ 101 ∧ 101 ≤ 800 ∧ 101 % 100 = 0) :=
  ⟨idle_takes _ rfl rfl rfl, by decide⟩
theorem meets_PlansAreLoadedAndCancelled :
    loaded.takesEvery .ldplan ∧ (List.replicate 47 (0 : Byte)).length ≠ 2 * (24#8).toNat
      ∧ planFitsPayload (List.replicate 25 { car := 1, span := 0 })
      ∧ 24 < (List.replicate 25 ({ car := 1, span := 0 } : PlanEntry)).length
      ∧ planFits loaded.demand.carCount (List.replicate 24 { car := 3, span := 3 })
      ∧ planFitsPayload (List.replicate 24 { car := 3, span := 3 }) ∧ planFits 0 [] ∧ planFitsPayload [] := by
  refine ⟨idle_takes _ rfl rfl rfl, by decide, ?_⟩
  unfold planFitsPayload planFits
  decide
theorem meets_PlansAreLoadedAndCancelled_refusals :
    isLowest (badCar [{ car := 0, span := 4 }] 3) 1 ∧ isLowest (badCar [{ car := 4, span := 0 }] 3) 1
      ∧ (∀ k, 1 ≤ k → ¬ badCar [{ car := 3, span := 4 }] 3 k) ∧ isLowest (badSpan [{ car := 3, span := 4 }]) 1 := by
  refine ⟨⟨by decide, ⟨_, rfl, by decide⟩, fun j _ _ => by omega⟩, ⟨by decide, ⟨_, rfl, by decide⟩, fun j _ _ => by omega⟩,
    fun k _ h => ?_, by decide, ⟨_, rfl, by decide⟩, fun j _ _ => by omega⟩
  obtain ⟨e, he, h⟩ := h
  obtain rfl := List.mem_singleton.1 (List.mem_of_getElem? he)
  exact absurd h (by decide)
theorem meets_PlansAreLoadedAndCancelled_cancels :
    loaded.takesEvery .canplan ∧ loaded.poll.active = [] ∧ (withPass loaded).poll.active ≠ [] ∧ loaded.takesEvery .canstby
      ∧ loaded.poll.standby = none ∧ (after (.ldplan [0x00#8]) loaded).poll.standby.isSome :=
  ⟨idle_takes _ rfl rfl rfl, rfl, by decide, idle_takes _ rfl rfl rfl, rfl, by decide⟩

/-- A manual result. -/
def someResult : ManualResult := { car := 1, outcome := .timeout, words := List.replicate 8 0, lost := false }

theorem meets_ManualRequestsAreKept :
    loaded.takesEvery .xchg ∧ loaded.mode.mode ≠ .config ∧ loaded.poll.manual = .empty ∧ loaded.demand.carCount < 4
      ∧ 1 ≤ 3 ∧ 3 ≤ loaded.demand.carCount ∧ (withManual loaded (.waiting 1)).poll.manual ≠ .empty
      ∧ loaded.takesEvery .canxchg ∧ (withManual loaded (.waiting 1)).poll.manual = .waiting 1
      ∧ (withManual loaded (.inFlight 1)).poll.manual = .inFlight 1
      ∧ loaded.takesEvery .rdxchg ∧ (loaded.setPoll { loaded.poll with result := .unread someResult }).poll.result
        = .unread someResult
      ∧ ∀ r, loaded.poll.result ≠ .unread r :=
  ⟨idle_takes _ rfl rfl rfl, by decide, rfl, by decide, by decide, by decide, by decide, idle_takes _ rfl rfl rfl, rfl, rfl,
    idle_takes _ rfl rfl rfl, rfl, fun _ h => (nomatch h)⟩
theorem meets_HealthFollowsOutcomesAndRestore :
    255 < 248 + 8 ∧ 247 + 8 ≤ 255 ∧ 255 < 240 + 16 ∧ 239 + 16 ≤ 255 ∧ loaded.takesEvery .restore
      ∧ loaded.mode.mode ≠ .config ∧ loaded.demand.carCount < 4 ∧ 3 ≤ loaded.demand.carCount
      ∧ (withHealth loaded { state := .cutOut, counter := 255, recovery := 9 }).health[1 - 1]?
        = some { state := .cutOut, counter := 255, recovery := 9 }
      ∧ loaded.health[3 - 1]? = some CarHealth.clear ∧ CarHealth.clear.state ≠ .cutOut :=
  ⟨by decide, by decide, by decide, by decide, idle_takes _ rfl rfl rfl, by decide, by decide, by decide, rfl, rfl, by decide⟩
theorem meets_RdattReturnsAndClears : (loaded.raise .poolLow).takesEvery .rdatt := idle_takes _ rfl rfl rfl
theorem meets_MasksGovernTheAttentionLine :
    loaded.takesEvery .setmask ∧ (0x8000#16).getLsbD 15 = true ∧ (0x7FFF#16).getLsbD 15 = false ∧ fenceWaits.portSound :=
  ⟨idle_takes _ rfl rfl rfl, by decide, by decide, fenceWaits_portSound⟩

/-! #### The fence -/

theorem meets_FenceBeginsTheCycle :
    (fresh.resetHeld = false ∧ fresh.timer.running = false)
      ∧ (loaded.resetHeld = false ∧ loaded.timer.running = true ∧ loaded.timer.cycleLength = some 20)
      ∧ (withPass loaded).poll.pass.isSome ∧ loaded.poll.pass = none ∧ loaded.poll.standby = none
      ∧ loaded.demand.cars[0]? = some CarOutput.clear ∧ (loaded.carPositions 499500)[0]? = some 498500 := by decide

/-- Loaded with LIMIT 702 staged in slot 1: the fence publishes it. -/
def publishing : State := leadAt .running 499500 [liveSlot curve701 .armed, stagedSlot limit702]

theorem meets_FenceBeginsTheCycle_looks :
    (publishing.carPositions 499500)[0]? = some 498500
      ∧ ({ e0 := 500000, e3 := 508000 } : Extent) ∈ (after .fence publishing).table.changedExtents
      ∧ ((500000 : Nat) : Int) ≤ 498500 + ((7 * publishing.demand.limits.previewStep : Nat) : Int)
      ∧ (498500 : Int) < ((508000 : Nat) : Int)
      ∧ (publishing.carPositions 499500)[2]? = some 493500
      ∧ ¬ ((500000 : Nat) : Int) ≤ 492999 + ((7 * publishing.demand.limits.previewStep : Nat) : Int) := by decide

/-- What FREE and given slots are made of. -/
theorem slots_sound (s : State) (l : List Slot) (h : ∀ x ∈ l, x.sound) : ∀ x ∈ (withSlots s l).table.slots, x.sound := by
  intro x hx
  rcases mem_withSlots hx with hx | rfl
  · exact h x hx
  · exact ⟨fun h => (nomatch h), fun _ h => (nomatch h), fun _ _ h => (nomatch h)⟩

/-- A slot that is fading. -/
def fadingSlot (n : Nat) : Slot := { liveSlot curve701 .active with fade := some n }

theorem meets_FenceWorksEverySlot :
    publishing.resetHeld = false ∧ publishing.timer.running = true
      ∧ publishing.table.bitmap.length = publishing.table.slots.length
      ∧ (∀ x ∈ publishing.table.slots, x.sound) ∧ 499500 = publishing.position.rp / 256
      ∧ publishing.mode.mode = .running ∧ publishing.table.slots[1]? = some (stagedSlot limit702)
      ∧ publishing.table.bitmap[1]? = some false := by
  refine ⟨rfl, rfl, rfl, slots_sound _ _ fun x hx => ?_, by decide, rfl, rfl, rfl⟩
  rcases List.mem_cons.1 hx with rfl | hx
  · exact ⟨fun h => (nomatch h), fun _ h => (nomatch h), fun _ _ _ h => (nomatch h)⟩
  · obtain rfl := List.mem_singleton.1 hx
    exact ⟨fun h => (nomatch h), fun _ h => (nomatch h), fun _ _ h => (nomatch h)⟩

/-- Where the cars stand: the first car just within the extent, the last just within it, the last just past it. -/
theorem meets_FenceWorksEverySlot_places :
    (leadAt .running 501000 []).carIn 501000 curve701 ∧ (leadAt .running 513999 []).carIn 513999 curve701
      ∧ ¬ (leadAt .running 500999 []).carIn 500999 curve701 ∧ ¬ (leadAt .running 500999 []).allPast 500999 curve701
      ∧ (leadAt .running 514000 []).allPast 514000 curve701 := by
  refine ⟨by unfold State.carIn; decide, by unfold State.carIn; decide, by unfold State.carIn; decide, ?_,
    by unfold State.carIn; decide, 508000, by decide, ?_⟩
  · have hp : (leadAt .running 500999 []).rearPosition 500999 = some 494999 := by decide
    rintro ⟨_, rear, hr, h⟩
    obtain rfl : (494999 : Int) = rear := Option.some.inj (hp.symm.trans hr)
    have h' : ((508000 : Nat) : Int) ≤ 494999 := h
    exact absurd h' (by decide)
  · show ((508000 : Nat) : Int) ≤ 508000; decide
theorem meets_FenceWorksEverySlot_slots :
    (stagedSlot limit702).pending = .image limit702
      ∧ ({ liveSlot curve701 .armed with pending := .withdrawal } : Slot).pending = .withdrawal
      ∧ ((fadingSlot 2).pending = .none ∧ (fadingSlot 2).live = some curve701 ∧ (fadingSlot 2).fade = some 2)
      ∧ (fadingSlot 1).fade = some 1
      ∧ ((liveSlot curve701 .armed).pending = .none ∧ (liveSlot curve701 .armed).fade = none)
      ∧ Slot.freed.live = none ∧ Slot.freed.pending = .none := ⟨rfl, rfl, ⟨rfl, rfl, rfl⟩, rfl, ⟨rfl, rfl⟩, rfl, rfl⟩
theorem meets_FenceChecksTheHorizon :
    loaded.resetHeld = false ∧ loaded.timer.running = true ∧ (∀ x ∈ loaded.table.slots, x.sound)
      ∧ (after .fence loaded).table.reach = some 508000 ∧ (after .fence (inMode .standby 0)).table.reach = none := by
  refine ⟨rfl, rfl, slots_sound _ _ fun x hx => ?_, by decide, by decide⟩
  obtain rfl := List.mem_singleton.1 hx
  exact ⟨fun h => (nomatch h), fun _ h => (nomatch h), fun _ _ _ h => (nomatch h)⟩

/-! #### Tilt demand -/

/-- The curve of record 701. -/
def body701 : Curve :=
  { e1 := 502000, e2 := 506000, hand := .right, angle := 400, band := none, entry := [0, 512, 1024], exit := [1024, 512, 0] }

/-- The same curve without profiles. -/
def plain701 : Curve := { body701 with entry := [], exit := [] }

theorem meets_DemandIsFormed_shape :
    (500000 ≤ body701.e1 ∧ body701.e1 ≤ body701.e2 ∧ body701.e2 ≤ 508000)
      ∧ (499999 : Int) < (500000 : Nat) ∧ ((508000 : Nat) : Int) ≤ 508000
      ∧ ((body701.e1 : Int) ≤ 502000 ∧ (502000 : Int) < body701.e2) ∧ (505999 : Int) < body701.e2
      ∧ (((500000 : Nat) : Int) ≤ 500000 ∧ (500000 : Int) < plain701.e1 ∧ plain701.entry = [])
      ∧ ((plain701.e2 : Int) ≤ 506000 ∧ (507999 : Int) < (508000 : Nat) ∧ plain701.exit = []) := by decide
theorem meets_DemandIsFormed_entry :
    2 ≤ [0, 512, 1024].length ∧ ((500000 : Nat) : Int) ≤ 501999 ∧ (501999 : Int) < body701.e1
      ∧ [0, 512, 1024] = body701.entry ∧ ((1999 : Nat) : Int) = 501999 - (500000 : Nat)
      ∧ 2000 = body701.e1 - 500000 ∧ 3998 = 1999 * ([0, 512, 1024].length - 1) ∧ 1 = 3998 / 2000 ∧ 1998 = 3998 - 1 * 2000
      ∧ [0, 512, 1024][1]? = some 512 ∧ 1998 ≠ 0 ∧ [0, 512, 1024][1 + 1]? = some 1024 := by decide
theorem meets_DemandIsFormed_exit :
    2 ≤ [0, 512, 1024].length ∧ (body701.e2 : Int) ≤ 506000 ∧ (506000 : Int) < (508000 : Nat)
      ∧ [0, 512, 1024] = body701.exit.reverse ∧ ((2000 : Nat) : Int) = (508000 : Nat) - 506000
      ∧ 2000 = 508000 - body701.e2 ∧ 4000 = 2000 * ([0, 512, 1024].length - 1) ∧ 2 = 4000 / 2000 ∧ 0 = 4000 - 2 * 2000
      ∧ [0, 512, 1024][2]? = some 1024 := by decide
theorem meets_DemandIsFormed_factor :
    1500 ≤ (State.reset.demand.limits.band).vZero ∧ State.reset.demand.limits.band.vFull ≤ 3500
      ∧ State.reset.demand.limits.band.vZero < 1501 ∧ 3499 < State.reset.demand.limits.band.vFull
      ∧ (2000 < 2001 ∧ ({ vZero := 2000, vFull := 2001 } : Band).vFull ≤ 2001) := by decide
theorem meets_DemandIsFormed_contribution :
    (liveSlot curve701 .armed).live = some curve701 ∧ (499999 : Int) < curve701.e0 ∧ (curve701.e3 : Int) ≤ 508000
      ∧ curve701.body = .curve body701 ∧ (curve701.e0 : Int) ≤ 500000 ∧ (507999 : Int) < curve701.e3
      ∧ (liveSlot limit702 .armed).live = some limit702 ∧ limit702.body = .limit 250 ∧ Slot.freed.live = none := by
  decide
theorem meets_DemandIsFormed_caps :
    (∃ x ∈ findatState.table.slots, ∃ r, x.live = some r ∧ r.body = .limit 250 ∧ (r.e0 : Int) ≤ 3150000
        ∧ (3150000 : Int) < r.e3)
      ∧ 250 = findatState.capFor 1 3150000 ∧ 250 ≤ findatState.capFor 2 3159999
      ∧ (withHealth loaded { state := .cutOut, counter := 255, recovery := 0 }).neighbourOut 2 = true
      ∧ (withHealth loaded { state := .cutOut, counter := 255, recovery := 0 }).neighbourOut 3 = false :=
  ⟨⟨_, List.mem_of_getElem? (i := 1) rfl, _, rfl, rfl, by decide, by decide⟩, by decide, by decide, by decide, by decide⟩
theorem meets_DemandIsFormed_demand :
    ∃ v : Int, v = max (-(findatState.capFor 1 3150000 : Int))
      (min (rawSum findatState.table.slots findatState.demand.limits.band findatState.position.snapshot.speed 3150000)
        (findatState.capFor 1 3150000)) ∧ v = 250 := ⟨_, rfl, by decide⟩

/-- A state with the last sent setpoint of car 1 given. -/
def lastSent (s : State) (v : Int) : State :=
  s.setDemand { s.demand with cars := s.demand.cars.set 0 { CarOutput.clear with lastSent := v } }

theorem meets_SetpointIsSlewedTowardItsTarget_off_track :
    fenceWaits.recordsSound ∧ (-1 : Int) < 0 ∧ (4294967295 : Int) < 4294967296
      ∧ fenceWaits.demandAt 1 (-1) = 0 ∧ fenceWaits.demandAt 1 4294967296 = 0 :=
  ⟨fenceWaits_recordsSound, by decide, by decide, by decide, by decide⟩

/-- A state with a snapshot lock. -/
def snapshotLock (s : State) (l : Lock) : State :=
  s.setPosition { s.position with snapshot := { s.position.snapshot with lock := l } }

theorem meets_SetpointIsSlewedTowardItsTarget :
    ((withHealth loaded { state := .cutOut, counter := 255, recovery := 0 }).healthOf 1).state = .cutOut
      ∧ ((withHealth loaded { state := .recovering, counter := 0, recovery := 0 }).healthOf 1).state = .recovering
      ∧ (loaded.healthOf 1).state = .served ∧ loaded.mode.mode = .running ∧ loaded.position.snapshot.lock = .noFix
      ∧ (inMode .hold 0).mode.mode = .hold ∧ (inMode .standby 0).mode.mode = .standby
      ∧ (snapshotLock loaded .locked).mode.mode = .running ∧ (snapshotLock loaded .locked).position.snapshot.lock ≠ .noFix
      ∧ ((0 : Int) - ((lastSent loaded (-25)).outputOf 1).lastSent).natAbs ≤ (lastSent loaded (-25)).demand.limits.slew
      ∧ (lastSent loaded (-26)).demand.limits.slew < ((0 : Int) - ((lastSent loaded (-26)).outputOf 1).lastSent).natAbs
      ∧ ((lastSent loaded (-26)).outputOf 1).lastSent < 0
      ∧ (lastSent loaded 26).demand.limits.slew < ((0 : Int) - ((lastSent loaded 26).outputOf 1).lastSent).natAbs
      ∧ 0 < ((lastSent loaded 26).outputOf 1).lastSent := by decide
theorem meets_SetpointIsSlewedTowardItsTarget_previews :
    (3 = 0 ∧ 7 = 0 ∨ 3 = 1 ∧ 7 = 1 ∨ 3 = 2 ∧ 7 = 3 ∨ 3 = 3 ∧ 7 = 7) ∧ 1 ≤ 7 ∧ 7 ≤ 7
      ∧ (inMode .hold 0).mode.mode ≠ .running ∧ loaded.table.reach = none
      ∧ (after .fence loaded).table.reach = some 508000 := by decide

/-! #### The tilt bus -/

theorem meets_PlanEntryIsServed_nothing :
    (exchanging loaded .sending []).resetHeld = false ∧ (exchanging loaded .sending []).poll.phase ≠ .idle
      ∧ (exchanging loaded .sending []).poll.exchange.isSome
      ∧ (∀ k, loaded.poll.pass = some k → loaded.poll.active.length < k)
      ∧ (exchanging loaded .sending []).poll.active.length < 2 :=
  ⟨rfl, by decide, rfl, fun _ h => (nomatch h), by decide⟩
theorem meets_PlanEntryIsServed :
    (withPass loaded).resetHeld = false ∧ (withPass loaded).poll.phase = .idle ∧ (withPass loaded).poll.exchange = none
      ∧ (withPass loaded).poll.pass = some 1 ∧ 1 ≤ 1 ∧ (withPass loaded).poll.active[1 - 1]? = some { car := 1, span := 2 }
      ∧ (withPass loaded).demand.composition = some train ∧ train.cars[1 - 1]? = some { address := 11, offset := 1000 }
      ∧ (withPass loaded).demand.lead = .endA ∧ (withPass loaded).position.travel = .ascending
      ∧ (498500 : Int) = ((withPass loaded).position.snapshot.lead : Int) - (1000 : Nat)
      ∧ (withPass loaded).demand.cars[1 - 1]? = some CarOutput.clear := by decide
theorem meets_InquiriesStartAndBusPhasesFollow :
    (∀ k, loaded.poll.manual ≠ .waiting k) ∧ (withPass loaded).poll.pass.isSome
      ∧ ((withManual loaded (.waiting 3)).resetHeld = false ∧ (withManual loaded (.waiting 3)).poll.phase = .idle
        ∧ (withManual loaded (.waiting 3)).poll.exchange = none ∧ (withManual loaded (.waiting 3)).poll.pass = none
        ∧ (withManual loaded (.waiting 3)).poll.manual = .waiting 3 ∧ 1 ≤ 3
        ∧ (withManual loaded (.waiting 3)).demand.composition = some train
        ∧ train.cars[3 - 1]? = some { address := 13, offset := 6000 })
      ∧ (exchanging loaded .sending []).poll.phase = .sending ∧ (exchanging loaded .awaiting []).poll.phase = .awaiting
      ∧ (exchanging loaded .settling []).poll.phase = .settling ∧ loaded.poll.phase ≠ .sending
      ∧ loaded.poll.phase ≠ .awaiting ∧ loaded.poll.phase ≠ .settling :=
  ⟨fun _ h => (nomatch h), by decide⟩

theorem meets_TiltFramesAreLaidOut :
    loaded.poll.frame = none
      ∧ (after .manualExchangeStart (withManual loaded (.waiting 2))).poll.frame = some (.inquiry 12)
      ∧ (∃ flags, (after .planEntryServed (withPass loaded)).poll.frame = some (.setpoint 11 flags [0, 0, 0, 0]))
      ∧ ∀ v ∈ [(0 : Int), 0, 0, 0], leanOk v := by
  refine ⟨rfl, rfl, ⟨_, rfl⟩, fun v hv => ?_⟩
  rcases List.mem_replicate.1 (show v ∈ List.replicate 4 (0 : Int) from hv) with ⟨_, rfl⟩
  exact ⟨by decide, by decide⟩
theorem test_frame_of_negative_values :
    (TiltFrame.setpoint 11 ⟨true, false, false, false, false, false, true⟩ [-800, 25]).bytes
      = withCheck [0x0B#8, 0x01#8, 0x41#8, 0x02#8, 0xE0#8, 0xFC#8, 0x19#8, 0x00#8] := by rfl

/-- The exchange of the exchanging states. -/
def exchange (received : List Byte) : Exchange where
  origin := .plan
  car := 1
  address := 11
  kind := .setpoint
  timeout := 300
  received := received
  framingError := false
  voided := false

theorem meets_RepliesEndTheExchange :
    ((exchanging loaded .awaiting []).resetHeld = false
        ∧ (exchanging loaded .awaiting []).poll.exchange = some (exchange []) ∧ 1 ≤ (exchange []).car
        ∧ (exchanging loaded .awaiting []).poll.phase = .awaiting)
      ∧ ((exchanging loaded .receiving (goodReply.take 5)).poll.exchange = some (exchange (goodReply.take 5))
        ∧ (exchanging loaded .receiving (goodReply.take 5)).poll.phase = .receiving
        ∧ (exchange (goodReply.take 5)).received.length + 1 < (exchange []).kind.replyLength)
      ∧ (exchange (goodReply.take 6)).received.length + 1 = (exchange []).kind.replyLength
      ∧ (goodReply.take 1) ≠ [] ∧ (exchange (goodReply.take 6)).received.length < (exchange []).kind.replyLength
      ∧ loaded.poll.phase ≠ .awaiting ∧ loaded.poll.phase ≠ .receiving :=
  ⟨⟨rfl, rfl, by decide, rfl⟩, ⟨rfl, rfl, by decide⟩, rfl, by decide, by decide, by decide, by decide⟩

/-! #### The route link -/

theorem meets_CharactersAreGathered :
    (loaded.resetHeld = false ∧ loaded.link.receiver.phase = .hunt ∧ 0x7D#8 ≠ 0x7E#8)
      ∧ (receiving loaded .frame []).link.receiver.phase = .frame
      ∧ (0x7C#8 ≠ 0x7E#8 ∧ 0x7C#8 ≠ 0x7D#8)
      ∧ ((receiving loaded .escape []).link.receiver.phase = .escape ∧ 0x5E#8 ≠ 0x7E#8 ∧ 0x7E#8 = 0x5E#8 ^^^ 0x20#8)
      ∧ ((receiving loaded .frame (List.replicate 63 0)).link.receiver.content.length < 64
        ∧ ¬ (receiving loaded .frame (List.replicate 64 0)).link.receiver.content.length < 64) := by decide

/-- A frame of RDSTAT whose check fails. -/
def badFrame : List Byte := [0x00#8, 0x07#8, 0x00#8, 0x00#8]

theorem meets_FramesAreJudged :
    ((receiving loaded .frame rdstatFrame).resetHeld = false
        ∧ (receiving loaded .frame rdstatFrame).link.receiver.phase = .frame
        ∧ (receiving loaded .escape [0x00#8]).link.receiver.phase = .escape)
      ∧ (∃ a, rdstatFrame.head? = some a ∧ a.toNat = 4 * loaded.straps.laddr.toNat)
      ∧ (¬ ∃ a, [0x01#8].head? = some a ∧ a.toNat = 4 * loaded.straps.laddr.toNat)
      ∧ [0x00#8, 0x07#8, 0x00#8].length < 4 ∧ 4 ≤ rdstatFrame.length ∧ (List.replicate 64 (0 : Byte)).length ≤ 64
      ∧ 64 < (List.replicate 65 (0 : Byte)).length
      ∧ (answering loaded).link.phase ≠ .idle ∧ (receiving loaded .frame rdstatFrame).link.phase = .idle := by
  refine ⟨⟨rfl, rfl, rfl⟩, ⟨_, rfl, rfl⟩, ?_, by decide, by decide, by decide, by decide, by decide, rfl⟩
  rintro ⟨a, h, ha⟩
  cases h
  exact absurd ha (by decide)
theorem meets_FramesAreJudged_checks :
    ¬ ((receiving loaded .frame rdstatFrame).link.receiver.stopBad = true
        ∨ true = false ∧ Config.badFlagMarksClosedFrame = true
        ∨ checkOf (rdstatFrame.take (rdstatFrame.length - 2)) ≠ wordAt rdstatFrame (rdstatFrame.length - 2))
      ∧ checkOf (badFrame.take (badFrame.length - 2)) ≠ wordAt badFrame (badFrame.length - 2) := by
  refine ⟨?_, by decide +kernel⟩
  have h : checkOf (rdstatFrame.take (rdstatFrame.length - 2)) = wordAt rdstatFrame (rdstatFrame.length - 2) := by
    decide +kernel
  rintro (h' | ⟨h', _⟩ | h')
  · cases h'
  · cases h'
  · exact h' h
theorem meets_FramesAreJudged_taken :
    (receiving loaded .frame rdstatFrame).resetHeld = false
      ∧ (receiving loaded .frame rdstatFrame).link.receiver.phase = .frame
      ∧ (True ↔ ∃ a, (receiving loaded .frame rdstatFrame).link.receiver.content.head? = some a
          ∧ a.toNat = 4 * (receiving loaded .frame rdstatFrame).straps.laddr.toNat)
      ∧ 4 ≤ (receiving loaded .frame rdstatFrame).link.receiver.count
      ∧ (receiving loaded .frame rdstatFrame).link.receiver.count ≤ 64
      ∧ (receiving loaded .frame rdstatFrame).link.phase = .idle
      ∧ CommandCode.rdstat.byte = (receiving loaded .frame rdstatFrame).link.receiver.content.getD 1 0
      ∧ CommandCode.rdstat.available (receiving loaded .frame rdstatFrame).mode.mode = true :=
  ⟨rfl, rfl, ⟨fun _ => ⟨_, rfl, rfl⟩, fun _ => trivial⟩, by decide, by decide, rfl, rfl, rfl⟩
theorem meets_FramesAreJudged_reset_ahead :
    (receiving (after .answerSent (after (.reset (.exact ())) loaded)) .frame rdstatFrame).link.phase = .idle
      ∧ (receiving (after .answerSent (after (.reset (.exact ())) loaded)) .frame rdstatFrame).mode.resetStage ≠ .none
      ∧ (receiving (after .answerSent (after (.reset (.exact ())) loaded)) .frame rdstatFrame).link.receiver.phase = .frame
      ∧ 4 ≤ rdstatFrame.length := by decide
theorem meets_FramesAreJudged_codes :
    CommandCode.rdstat.byte = rdstatFrame.getD 1 0 ∧ (∀ c : CommandCode, c.byte ≠ 0x00#8)
      ∧ CommandCode.rdstat.available loaded.mode.mode = true ∧ CommandCode.start.available loaded.mode.mode = false :=
  ⟨rfl, fun c => by cases c <;> decide, rfl, rfl⟩

theorem meets_AnswersAreFramed :
    loaded.link.answer = none
      ∧ ∃ a, (answering loaded).link.answer = some a ∧ a.result = .done := ⟨rfl, _, rfl, rfl⟩

/-- No word spells a command (log 25). -/
theorem test_noWordSpellsACommand : decodeTableWord 32 0 = none := rfl

end Sys2Proof.Tests
end

section
/-! SUPPORT. Where the values of the Position Unit and of the hold distance stay, and that each change a row makes
to them keeps them there (R1 to R3, R12 to R14, R175, R181). -/

namespace Sys2Proof.Machine

/-! ### Values held in their range -/

theorem holdPosition_le (x : Int) : holdPosition x ≤ topPosition := by unfold holdPosition; omega

theorem holdSigned_natAbs_le (x : Int) : (holdSigned x).natAbs ≤ topPosition := by unfold holdSigned; omega

theorem satDistance_le (n : Nat) : satDistance n ≤ topPosition := Nat.min_le_right _ _

theorem bump_le (n : Nat) : bump n ≤ 65535 := Nat.min_le_right _ _

/-- The whole-cm part of a position within its range is a chainage. -/
theorem wholeCm_le {n : Nat} (h : n ≤ topPosition) : wholeCm n ≤ maxChainage :=
  Nat.div_le_of_le_mul (by rwa [Nat.mul_comm])

/-- Any chainage, with a fraction of 0, is a position within its range (R15). -/
theorem chainage_le (p : ChainageField) : p.toNat * 256 ≤ topPosition :=
  Nat.mul_le_mul_right 256 (Nat.le_of_lt_succ p.isLt)

/-! ### The two parts of `State.positionSound` -/

/-- The Position Unit but for its fix interval limit, which a pulse passes before it checks it (R1, R12, R14). -/
structure PositionUnit.Ranged (p : PositionUnit) : Prop where
  rp : p.rp ≤ topPosition
  calibration : 16 ≤ p.calibration ∧ p.calibration ≤ 4096
  cycleDistance : p.cycleDistance.natAbs ≤ topPosition
  fixDistance : p.fixDistance ≤ topPosition
  window : 10 ≤ p.window ∧ p.window ≤ 5000
  intervalLimit : p.intervalLimit ≤ 65535
  snapshot : p.snapshot.lead ≤ maxChainage ∧ p.snapshot.speed ≤ 65535
  counts : p.unmatched ≤ 65535 ∧ p.markerOverruns ≤ 65535 ∧ p.bad ≤ 65535
  candidate : p.candidate.isSome → p.lock = .doubt

/-- The Position Unit with its fix interval limit not passed (R14). -/
structure PositionUnit.Sound (p : PositionUnit) : Prop extends p.Ranged where
  within : p.lock = .locked → p.intervalLimit ≠ 0 → p.fixDistance / 256 ≤ p.intervalLimit * 100

/-- The hold distances but for the limit, which a pulse passes before it checks it (R175). -/
structure ModeControl.Ranged (m : ModeControl) : Prop where
  holdDistance : m.holdDistance ≤ 5000
  holdTravelled : m.holdTravelled ≤ topPosition

/-- The hold distances with the limit not passed (R181). -/
structure ModeControl.Sound (m : ModeControl) : Prop extends m.Ranged where
  within : m.mode = .hold → m.holdDistance ≠ 0 → m.holdTravelled / 256 ≤ m.holdDistance * 100

theorem positionSound_iff (s : State) : s.positionSound ↔ s.position.Sound ∧ s.mode.Sound := by
  unfold State.positionSound
  constructor
  · rintro ⟨rp, cal, cycle, fix, window, limit, snapshot, counts, candidate, within, hold, travelled, passed⟩
    exact ⟨⟨⟨rp, cal, cycle, fix, window, limit, snapshot, counts, candidate⟩, within⟩, ⟨hold, travelled⟩, passed⟩
  · rintro ⟨⟨⟨rp, cal, cycle, fix, window, limit, snapshot, counts, candidate⟩, within⟩, ⟨hold, travelled⟩, passed⟩
    exact ⟨rp, cal, cycle, fix, window, limit, snapshot, counts, candidate, within, hold, travelled, passed⟩

/-! ### The two checks -/

theorem intervalPassed_iff (p : PositionUnit) : p.intervalPassed = true ↔
    p.lock = .locked ∧ p.intervalLimit ≠ 0 ∧ p.intervalLimit * 100 < p.fixDistance / 256 := by
  simp only [PositionUnit.intervalPassed, Bool.and_eq_true, decide_eq_true_eq, and_assoc]
  rfl

theorem holdPassed_iff (m : ModeControl) : m.holdPassed = true ↔
    m.mode = .hold ∧ m.holdDistance ≠ 0 ∧ m.holdDistance * 100 < m.holdTravelled / 256 := by
  simp only [ModeControl.holdPassed, Bool.and_eq_true, decide_eq_true_eq, and_assoc]
  rfl

theorem checkInterval_of_passed {s : State} (h : s.position.intervalPassed = true) :
    s.checkInterval = (s.setPosition { s.position with candidate := none }).setLock .doubt := if_pos h

theorem checkInterval_of_not_passed {s : State} (h : ¬ s.position.intervalPassed = true) : s.checkInterval = s :=
  if_neg h

theorem checkHold_of_passed {s : State} (h : s.mode.holdPassed = true) :
    s.checkHold = (s.setMode { s.mode with mode := .standby }).raise .modeChanged := if_pos h

theorem checkHold_of_not_passed {s : State} (h : ¬ s.mode.holdPassed = true) : s.checkHold = s := if_neg h

/-- After its check the fix interval limit has not been passed: in DOUBT it does not count. -/
theorem checkInterval_sound {s : State} (h : s.position.Ranged) : s.checkInterval.position.Sound := by
  by_cases hp : s.position.intervalPassed = true
  · rw [checkInterval_of_passed hp]
    exact { h with candidate := nofun, within := nofun }
  · rw [checkInterval_of_not_passed hp]
    rw [intervalPassed_iff] at hp
    exact { h with within := fun hl hn => Nat.le_of_not_lt fun hlt => hp ⟨hl, hn, hlt⟩ }

/-- After its check the hold distance has not been passed: in STANDBY it does not count. -/
theorem checkHold_sound {s : State} (h : s.mode.Ranged) : s.checkHold.mode.Sound := by
  by_cases hp : s.mode.holdPassed = true
  · rw [checkHold_of_passed hp]
    exact { h with within := nofun }
  · rw [checkHold_of_not_passed hp]
    rw [holdPassed_iff] at hp
    exact { h with within := fun hm hn => Nat.le_of_not_lt fun hlt => hp ⟨hm, hn, hlt⟩ }

/-! ### The changes that the rows make -/

/-- A mode entered other than HOLD leaves no hold distance to pass. -/
theorem enterMode_sound {s : State} (h : s.mode.Sound) (m : Mode) (hm : m ≠ .hold) : (s.enterMode m).mode.Sound :=
  { h with within := fun he => absurd he hm }

section
variable {p : PositionUnit} (h : p.Sound)
include h

/-- The latch, the reception and the counts can change within their ranges. -/
theorem PositionUnit.Sound.recount {latch : Option Int} {reception : Option MarkerReception} {un ov bad : Nat}
    (hun : un ≤ 65535) (hov : ov ≤ 65535) (hbad : bad ≤ 65535) :
    ({ p with latch := latch, reception := reception, unmatched := un, markerOverruns := ov, bad := bad } :
      PositionUnit).Sound :=
  { h with counts := ⟨hun, hov, hbad⟩ }

theorem PositionUnit.Sound.pulse (d : Direction) : (p.pulse d).Ranged :=
  { h with rp := holdPosition_le _, cycleDistance := holdSigned_natAbs_le _, fixDistance := satDistance_le _ }

theorem PositionUnit.Sound.takeSnapshot (length : Nat) : (p.takeSnapshot length).Sound :=
  { h with
    cycleDistance := Nat.zero_le _
    snapshot := ⟨wholeCm_le h.rp, by
      simp only [PositionUnit.takeSnapshot, PositionUnit.speedOver]
      split <;> omega⟩ }

end

theorem ModeControl.Sound.travel {m : ModeControl} (h : m.Sound) (n : Nat) : (m.travel n).Ranged := by
  unfold ModeControl.travel
  split
  · exact ⟨h.holdDistance, satDistance_le _⟩
  · exact h.toRanged

/-- A fix applied leaves RP in its range and a fix distance of 0; one refused leaves a candidate in DOUBT (R12, R13). -/
theorem judgeFix_sound {s : State} (h : s.position.Sound) (i : Nat) (e : Int) : (s.judgeFix i e).position.Sound := by
  unfold State.judgeFix
  split
  · exact { h with
      rp := holdPosition_le _, fixDistance := Nat.zero_le _, candidate := nofun
      within := fun _ _ => Nat.le_trans (Nat.le_of_eq (Nat.zero_div 256)) (Nat.zero_le _) }
  · exact { h with candidate := fun _ => rfl, within := nofun }

/-! ### What a message and a strobe leave of the Position Unit -/

section
variable (s : State)

theorem discardFailed_position : s.discardFailed.position =
    { s.position with reception := none, latch := none, bad := bump s.position.bad } := rfl

theorem discardUnpaired_position : s.discardUnpaired.position =
    { s.position with reception := none, bad := bump s.position.bad } := rfl

theorem unmatched_position : s.unmatched.position =
    { s.position with reception := none, latch := none, unmatched := bump s.position.unmatched } := rfl

theorem strobe_position : s.strobe.position =
    { s.position with
      latch := some s.antenna
      markerOverruns :=
        if s.position.latch.isSome then bump s.position.markerOverruns else s.position.markerOverruns } := rfl

end

theorem judgeFix_mode (s : State) (i : Nat) (e : Int) : (s.judgeFix i e).mode = s.mode := by
  unfold State.judgeFix; split <;> rfl

theorem takeMessage_mode (s : State) (m : MarkerReception) : (s.takeMessage m).mode = s.mode := by
  unfold State.takeMessage
  split
  · split
    · rfl
    · split
      · rfl
      · exact judgeFix_mode _ _ _
  · rfl

theorem takeMessage_sound {s : State} (h : s.position.Sound) (m : MarkerReception) :
    (s.takeMessage m).position.Sound := by
  obtain ⟨hun, hov, hbad⟩ := h.counts
  unfold State.takeMessage
  split
  · split
    · rw [discardUnpaired_position]; exact h.recount hun hov (bump_le _)
    · split
      · rw [unmatched_position]; exact h.recount (bump_le _) hov hbad
      · exact judgeFix_sound (s := s.setPosition { s.position.endReception with latch := none })
          (h.recount hun hov hbad) _ _
  · rw [discardFailed_position]; exact h.recount hun hov (bump_le _)

theorem markerByte_mode (s : State) (b : Byte) (ok : Bool) : (s.markerByte b ok).mode = s.mode := by
  unfold State.markerByte
  split
  · split <;> rfl
  · split
    · exact takeMessage_mode _ _
    · rfl

theorem markerByte_sound {s : State} (h : s.position.Sound) (b : Byte) (ok : Bool) :
    (s.markerByte b ok).position.Sound := by
  obtain ⟨hun, hov, hbad⟩ := h.counts
  unfold State.markerByte
  split
  · split
    · exact h.recount hun hov hbad
    · exact h
  · split
    · exact takeMessage_sound h _
    · exact h.recount hun hov hbad

theorem strobe_sound {s : State} (h : s.position.Sound) : s.strobe.position.Sound := by
  obtain ⟨hun, hov, hbad⟩ := h.counts
  rw [strobe_position]
  refine h.recount hun ?_ hbad
  split
  · exact bump_le _
  · exact hov

/-! ### The values after power-on -/

theorem powerOn_sound (reception : Option MarkerReception) :
    ({ PositionUnit.powerOn with reception := reception } : PositionUnit).Sound where
  rp := Nat.zero_le _
  calibration := ⟨(by decide : 16 ≤ 256), (by decide : 256 ≤ 4096)⟩
  cycleDistance := Nat.zero_le _
  fixDistance := Nat.zero_le _
  window := ⟨(by decide : 10 ≤ 300), (by decide : 300 ≤ 5000)⟩
  intervalLimit := Nat.zero_le _
  snapshot := ⟨Nat.zero_le _, Nat.zero_le _⟩
  counts := ⟨Nat.zero_le _, Nat.zero_le _, Nat.zero_le _⟩
  candidate := nofun
  within := nofun

theorem modePowerOn_sound : ModeControl.powerOn.Sound where
  holdDistance := Nat.zero_le _
  holdTravelled := Nat.zero_le _
  within := nofun

end Sys2Proof.Machine
end

section
/-! PROOFS. The Position Unit and the hold distances stay in their ranges through every step. -/

namespace Sys2Proof.Machine

/-- Every change of state that a row can make keeps the Position Unit and the hold distances sound. Most rows touch
neither, or enter a mode other than HOLD. -/
theorem keeps_positionSound : Keeps fun s => s.position.Sound ∧ s.mode.Sound where
  start u h _ := by
    unfold actStart
    split
    · exact h
    · exact ⟨{ h.1 with cycleDistance := Nat.zero_le _ }, enterMode_sound h.2 .standby (by decide)⟩
  run u h _ := by unfold actRun; split; exact h; exact ⟨h.1, enterMode_sound h.2 .running (by decide)⟩
  stby u h _ := by unfold actStby; split; exact h; exact ⟨h.1, enterMode_sound h.2 .standby (by decide)⟩
  hold u d h _ := by
    unfold actHold
    split
    · exact h
    · rename_i hd
      exact ⟨h.1, ⟨Nat.le_of_not_lt hd, Nat.zero_le _⟩, fun _ _ => Nat.le_trans (Nat.le_of_eq (Nat.zero_div 256)) (Nat.zero_le _)⟩
  stop u h _ := by unfold actStop; split; exact h; exact ⟨h.1, enterMode_sound h.2 .config (by decide)⟩
  reset u h := ⟨h.1, { h.2 with }⟩
  setcal u n h := by
    unfold actSetcal
    split
    · exact h
    · have hn : 16 ≤ n ∧ n ≤ 4096 := by omega
      exact ⟨{ h.1 with calibration := hn, candidate := nofun, within := nofun }, h.2⟩
  setpos u p h :=
    ⟨{ h.1 with rp := chainage_le p, fixDistance := Nat.zero_le _, candidate := nofun, within := nofun }, h.2⟩
  setfix u f h := by
    unfold actSetfix
    split
    · exact h
    · have hw : 10 ≤ f.window ∧ f.window ≤ 5000 := by omega
      have hl : f.intervalLimit ≤ 65535 := by omega
      refine ⟨checkInterval_sound { h.1 with window := hw, intervalLimit := hl }, ?_⟩
      simp only [CommandResult.done]
      rw [checkInterval_mode]
      exact h.2
  openr u f h _ := by unfold actOpenr; split <;> exact h
  putp u vs h _ := by unfold actWrite; split; exact h; split <;> exact h
  contp u vs h _ := by unfold actWrite; split; exact h; split <;> exact h
  closer u h _ := by unfold actCloser; split; exact h; split <;> exact h
  abandr u h _ := by unfold actAbandr; split <;> exact h
  wdraw u f h _ := by unfold actWdraw; split; exact h; split <;> exact h
  wdsect u f h _ := by unfold actWdsect; split <;> exact h
  clrtab u h _ := h
  rdrec u f h := by unfold actRdrec State.readSlot; split; exact h; split; exact h; split <;> exact h
  rdslot u f h := by unfold actRdslot State.readSlot; split; exact h; split; exact h; split <;> exact h
  tsum u h := h
  cover u p h _ := by unfold actCover; split <;> exact h
  setcyc u f h := by unfold actSetcyc; split <;> exact h
  setcomp u p h _ := by unfold actSetcomp; split <;> exact h
  settrav u f h _ := by
    unfold actSettrav
    split
    · exact ⟨{ h.1 with }, h.2⟩
    · exact h
    · exact h
  setlim u f h _ := by unfold actSetlim; split <;> exact h
  setbus u n h := by unfold actSetbus; split; exact h; split <;> exact h
  ldplan u p h := by unfold actLdplan; split <;> exact h
  canplan u h := by unfold actCanplan; split <;> exact h
  canstby u h := by unfold actCanstby; split <;> exact h
  xchg u k h _ := by unfold actXchg; split; exact h; exact h; split <;> exact h
  canxchg u h := by unfold actCanxchg; split <;> exact h
  rdxchg u h := by unfold actRdxchg; split <;> exact h
  restore u k h _ := by unfold actRestore; split; exact h; split <;> exact h
  pulse u d h := by
    refine ⟨?_, checkHold_sound ?_⟩
    · rw [checkHold_position]; exact checkInterval_sound (h.1.pulse d)
    · rw [checkInterval_mode]; exact h.2.travel _
  interval u h := ⟨checkInterval_sound h.1.toRanged, by rw [checkInterval_mode]; exact h.2⟩
  holdx u h := ⟨by rw [checkHold_position]; exact h.1, checkHold_sound h.2.toRanged⟩
  strobe u h := ⟨strobe_sound h.1, h.2⟩
  mbyte u b ok h := ⟨markerByte_sound h.1 b ok, by rw [markerByte_mode]; exact h.2⟩
  cut u h := by
    obtain ⟨hun, hov, _⟩ := h.1.counts
    exact ⟨by rw [discardFailed_position]; exact h.1.recount hun hov (bump_le _), h.2⟩
  fence u h _ := ⟨h.1.takeSnapshot _, h.2⟩
  serve u k e car p h _ := h
  inquiry u k car h _ := h
  sent u h _ := h
  sbit u h _ := h
  rbyte u e b ok h _ _ _ := h
  outcome u e o r h _ := by rw [takeOutcome_position, takeOutcome_mode]; exact h
  settled u h _ := h
  answered u h := ⟨h.1, { h.2 with }⟩
  soft u h := ⟨{ h.1 with candidate := nofun }, { h.2 with holdTravelled := Nat.zero_le _, within := nofun }⟩
  pin u st _ := ⟨powerOn_sound _, modePowerOn_sound⟩
  pow u st _ := ⟨powerOn_sound _, modePowerOn_sound⟩
  rel u h := h

/-- Settles O12: each change of state that a row can make keeps both parts, and the port bears on neither. -/
theorem positionStaysSound : Obligations.PositionStaysSound := by
  intro s t hs hstep
  rw [positionSound_iff] at hs ⊢
  exact step_keeps (P := fun s => s.position.Sound ∧ s.mode.Sound) (fun _ _ h => h)
    (exec_keeps keeps_positionSound fun _ _ h => h) s t hs hstep

end Sys2Proof.Machine
end

section
/-! SUPPORT. How the relations of the statements (`LinkKept`, `KeptBut`, `Raised`) pass through the updates of a state,
and what the lock, the two checks and a pulse leave. -/

namespace Sys2Proof.Machine

/-! ### The link side of the port -/

section
variable {s u : State} (h : LinkKept s u)
include h

theorem LinkKept.raiseIf (b : Bool) (c : Cause) : LinkKept s (u.raiseIf b c) := by
  cases b
  · exact h
  · exact h

theorem LinkKept.setLock (l : Lock) : LinkKept s (u.setLock l) :=
  LinkKept.raiseIf (u := u.setPosition { u.position with lock := l }) h _ _

theorem LinkKept.checkInterval : LinkKept s u.checkInterval := by
  unfold State.checkInterval
  split
  · exact LinkKept.setLock (u := u.setPosition { u.position with candidate := none }) h _
  · exact h

theorem LinkKept.checkHold : LinkKept s u.checkHold := by
  unfold State.checkHold
  split
  · exact h
  · exact h

end

/-! ### The parts a change leaves -/

section
variable {named : List Block} {s u : State} (h : KeptBut named s u)
include h

theorem KeptBut.setPosition (x : PositionUnit) (hb : Block.position ∈ named) : KeptBut named s (u.setPosition x) := by
  obtain ⟨hk, h1, h2, h3⟩ := h
  refine ⟨fun b => ?_, h1, h2, h3⟩
  cases b
  case position => exact Or.inl hb
  all_goals exact hk _

theorem KeptBut.setTable (x : CurveTable) (hb : Block.table ∈ named) : KeptBut named s (u.setTable x) := by
  obtain ⟨hk, h1, h2, h3⟩ := h
  refine ⟨fun b => ?_, h1, h2, h3⟩
  cases b
  case table => exact Or.inl hb
  all_goals exact hk _

theorem KeptBut.setDemand (x : DemandUnit) (hb : Block.demand ∈ named) : KeptBut named s (u.setDemand x) := by
  obtain ⟨hk, h1, h2, h3⟩ := h
  refine ⟨fun b => ?_, h1, h2, h3⟩
  cases b
  case demand => exact Or.inl hb
  all_goals exact hk _

theorem KeptBut.setMode (x : ModeControl) (hb : Block.mode ∈ named) : KeptBut named s (u.setMode x) := by
  obtain ⟨hk, h1, h2, h3⟩ := h
  refine ⟨fun b => ?_, h1, h2, h3⟩
  cases b
  case mode => exact Or.inl hb
  all_goals exact hk _

theorem KeptBut.setLock (l : Lock) (hp : Block.position ∈ named) (ha : Block.attention ∈ named) :
    KeptBut named s (u.setLock l) :=
  (h.setPosition _ hp).raiseIf _ _ ha

theorem KeptBut.checkInterval (hp : Block.position ∈ named) (ha : Block.attention ∈ named) :
    KeptBut named s u.checkInterval := by
  unfold State.checkInterval
  split
  · exact (h.setPosition _ hp).setLock _ hp ha
  · exact h

theorem KeptBut.checkHold (hm : Block.mode ∈ named) (ha : Block.attention ∈ named) : KeptBut named s u.checkHold := by
  unfold State.checkHold
  split
  · exact (h.setMode _ hm).raise _ ha
  · exact h

end

/-! ### The causes raised -/

theorem withCauses_append (w : Word) (a b : List Cause) : withCauses w (a ++ b) = withCauses (withCauses w a) b := by
  induction a generalizing w with
  | nil => rfl
  | cons c cs ih => exact ih _

/-- One cause raised where its condition holds. -/
theorem causesWhere_one (b : Bool) (c : Cause) : causesWhere [(b, c)] = if b then [c] else [] := by cases b <;> rfl

theorem causesWhere_append (a b : List (Bool × Cause)) : causesWhere (a ++ b) = causesWhere a ++ causesWhere b := by
  simp [causesWhere]

/-- LOCK_CHANGED where the lock was another. -/
theorem causesWhere_lock (a l : Lock) :
    causesWhere [(decide (a ≠ l), .lockChanged)] = if a = l then [] else [.lockChanged] := by
  rw [causesWhere_one]
  by_cases h : a = l <;> simp [h]

theorem Raised.refl (s : State) : Raised [] s s := ⟨rfl, rfl, rfl⟩

section
variable {causes : List Cause} {s u : State} (h : Raised causes s u)
include h

theorem Raised.raise (c : Cause) : Raised (causes ++ [c]) s (u.raise c) := by
  obtain ⟨h1, h2, h3⟩ := h
  exact ⟨by rw [withCauses_append, ← h1]; rfl, h2, h3⟩

theorem Raised.raiseIf (b : Bool) (c : Cause) : Raised (causes ++ causesWhere [(b, c)]) s (u.raiseIf b c) := by
  cases b
  · exact (List.append_nil causes).symm ▸ h
  · exact h.raise c

theorem Raised.setLock (l : Lock) :
    Raised (causes ++ causesWhere [(decide (u.position.lock ≠ l), .lockChanged)]) s (u.setLock l) :=
  Raised.raiseIf (u := u.setPosition { u.position with lock := l }) h _ _

/-- A passed fix interval limit is passed in LOCKED, so that DOUBT changes the lock (R11, R14). -/
theorem Raised.checkInterval :
    Raised (causes ++ causesWhere [(u.position.intervalPassed, .lockChanged)]) s u.checkInterval := by
  by_cases hp : u.position.intervalPassed = true
  · have hl := ((intervalPassed_iff _).1 hp).1
    have := Raised.setLock (u := u.setPosition { u.position with candidate := none }) h .doubt
    rw [checkInterval_of_passed hp, hp]
    simpa [hl] using this
  · rw [checkInterval_of_not_passed hp, eq_false_of_ne_true hp]
    exact (List.append_nil causes).symm ▸ h

theorem Raised.checkHold : Raised (causes ++ causesWhere [(u.mode.holdPassed, .modeChanged)]) s u.checkHold := by
  by_cases hp : u.mode.holdPassed = true
  · rw [checkHold_of_passed hp, hp]
    exact Raised.raise (u := u.setMode { u.mode with mode := .standby }) h _
  · rw [checkHold_of_not_passed hp, eq_false_of_ne_true hp]
    exact (List.append_nil causes).symm ▸ h

end

/-- The answer raises no cause. -/
theorem Raised.answer {causes : List Cause} {s u : State} {c : CommandCode} (r : ResultCode) (p : AnswerPayload)
    (h : Raised causes (s.admitted c) u) : Raised causes s (u.answer c r p) := by
  obtain ⟨h1, h2, h3⟩ := h
  simp only [State.admitted_link, LinkPort.admitted_causes, LinkPort.admitted_cars, LinkPort.admitted_masks] at h1 h2 h3
  exact ⟨h1, h2, h3⟩

/-! ### What the two checks and a pulse set -/

theorem checkInterval_position (s : State) : s.checkInterval.position = { s.position with
    lock := if s.position.intervalPassed then .doubt else s.position.lock
    candidate := if s.position.intervalPassed then none else s.position.candidate } := by
  unfold State.checkInterval
  split <;> rfl

theorem checkHold_mode (s : State) :
    s.checkHold.mode = { s.mode with mode := if s.mode.holdPassed then .standby else s.mode.mode } := by
  unfold State.checkHold
  split <;> rfl

/-- Only in HOLD does a pulse count towards the hold distance (R175). -/
theorem travel_eq (m : ModeControl) (n : Nat) : m.travel n = { m with
    holdTravelled := if m.mode = .hold then satDistance (m.holdTravelled + n) else m.holdTravelled } := by
  unfold ModeControl.travel
  split <;> rfl

theorem pulseDistance_eq (p : PositionUnit) (d : Direction) :
    p.pulseDistance d = if d = .forward then (p.calibration : Int) else -(p.calibration : Int) := by
  cases d <;> rfl

/-- RP rises by a pulse whose direction and travel sense agree, and else falls (R2). -/
theorem ahead_pulseDistance (p : PositionUnit) (d : Direction) (x : Int) : ahead p.travel x (p.pulseDistance d) =
    x + if d = .forward ↔ p.travel = .ascending then (p.calibration : Int) else -(p.calibration : Int) := by
  cases d <;> cases p.travel <;> simp [ahead, PositionUnit.pulseDistance, Int.sub_eq_add_neg]

/-- A pulse in the words of R2 and R3. -/
theorem pulse_eq (p : PositionUnit) (d : Direction) : p.pulse d = { p with
    rp := holdPosition (p.rp
      + if d = .forward ↔ p.travel = .ascending then (p.calibration : Int) else -(p.calibration : Int))
    cycleDistance := holdSigned (p.cycleDistance
      + if d = .forward then (p.calibration : Int) else -(p.calibration : Int))
    fixDistance := satDistance (p.fixDistance + p.calibration) } := by
  rw [← ahead_pulseDistance, ← pulseDistance_eq]
  rfl

end Sys2Proof.Machine
end

section
/-! PROOFS. The position commands, the reads, a pulse and the two expiries. -/

namespace Sys2Proof.Machine

/-! ### The reads -/

theorem effective_eq (c : Composition) (lead : TrainEnd) (offset : Nat) :
    c.effective lead offset = if lead = .endA then offset else c.length - offset := by cases lead <;> rfl

/-- What RDCOMP answers for each car of the composition (R95). -/
theorem carReports_getElem? {d : DemandUnit} {c : Composition} (hc : d.composition = some c) {k : Nat} {car : Car}
    (hk : c.cars[k]? = some car) : d.carReports[k]? = some
      { index := k + 1, address := car.address, offset := car.offset,
        effective := if d.lead = .endA then car.offset else c.length - car.offset } := by
  simp [DemandUnit.carReports, hc, mapNumbered_getElem?, hk, effective_eq, Nat.add_comm 1 k]

theorem carReports_length {d : DemandUnit} {c : Composition} (hc : d.composition = some c) :
    d.carReports.length = c.cars.length := by
  simp [DemandUnit.carReports, hc]

theorem rearCar_eq {d : DemandUnit} {c : Composition} (hc : d.composition = some c) :
    d.rearCar = if d.lead = .endA then c.cars.length else 1 := by
  unfold DemandUnit.rearCar
  rw [hc]
  cases d.lead <;> rfl

theorem readerOffset_none {d : DemandUnit} (hc : d.composition = none) : d.readerOffset = 0 := by
  simp [DemandUnit.readerOffset, hc]

theorem readerOffset_some {d : DemandUnit} {c : Composition} (hc : d.composition = some c) :
    d.readerOffset = if d.lead = .endA then c.reader else c.length - c.reader := by
  simp [DemandUnit.readerOffset, hc, effective_eq]

/-- Car k of the composition held, counted from 1. -/
theorem car?_of_getElem? {d : DemandUnit} {c : Composition} {car : Car} {k : Nat} (hk : 1 ≤ k)
    (hc : d.composition = some c) (hcar : c.cars[k - 1]? = some car) : d.car? k = some car := by
  simp [DemandUnit.car?, Composition.car?, hc, hcar, Nat.ne_of_gt hk]

theorem car?_eq_none {d : DemandUnit} {k : Nat} (hk : 1 ≤ k)
    (h : ∀ c, d.composition = some c → c.cars.length < k) : d.car? k = none := by
  unfold DemandUnit.car? Composition.car?
  cases hc : d.composition with
  | none => rfl
  | some c =>
    have := h c hc
    simp [Nat.ne_of_gt hk]
    omega

/-- Settles O24: each read answers by its own act, which leaves the state. -/
theorem readsReportAndChangeNothing : Obligations.ReadsReportAndChangeNothing := by
  refine ⟨fun s hs => ?_, fun s hs => ?_, fun s hs => ?_, fun s k hs => ⟨fun hk => ?_, fun o h h1 h16 ho hh => ?_⟩⟩
  · obtain ⟨t, he, ha, hk⟩ := runCommand_answers_unchanged (owner := actRdpos ()) hs rfl rfl rfl
    exact ⟨t, he, hk, ha⟩
  · obtain ⟨t, he, ha, hk⟩ := runCommand_answers_unchanged (owner := actRdstat ()) hs rfl rfl rfl
    exact ⟨t, he, hk, ha⟩
  · obtain ⟨t, he, ha, hk⟩ := runCommand_answers_unchanged (owner := actRdcomp ()) hs rfl rfl rfl
    refine ⟨t, s.compositionReport, he, hk, ha, rfl, rfl, fun hc => ?_, fun c hc => ?_⟩
    · simp [State.compositionReport, DemandUnit.carCount, DemandUnit.carReports, DemandUnit.rearCar,
        readerOffset_none hc, hc]
    · refine ⟨?_, carReports_length hc, fun k car => carReports_getElem? hc, ?_, ?_, readerOffset_some hc,
        rearCar_eq hc⟩
      · simp [State.compositionReport, DemandUnit.carCount, hc]
      · simp [State.compositionReport, hc]
      · simp [State.compositionReport, hc]
  · exact runCommand_answers_unchanged (owner := actRdcar k) hs rfl rfl (if_pos hk)
  · have hr : ¬ (k = 0 ∨ carIndices < k) := by simp only [carIndices]; omega
    obtain ⟨t, he, ha, hk⟩ := runCommand_answers_unchanged (owner := actRdcar k) hs rfl rfl (if_neg hr)
    have hk0 : k ≠ 0 := Nat.ne_of_gt h1
    refine ⟨t, s.carReport k, he, hk, ha, ?_, ?_, fun c car hc hcar => ?_, fun hc => ?_⟩
    · simp [State.carReport, State.outputOf, hk0, ho]
    · simp [State.carReport, State.healthOf, hk0, hh]
    · simp [State.carReport, car?_of_getElem? h1 hc hcar]
    · simp [State.carReport, car?_eq_none h1 hc]

/-! ### The position commands -/

/-- Settles O25: both commands set their fields and then the lock. -/
theorem setcalAndSetposMoveTheLock : Obligations.SetcalAndSetposMoveTheLock := by
  refine ⟨fun s n hs hm => ⟨fun hn => ?_, fun h16 h4096 => ?_⟩, fun s p hs hm => ?_⟩
  · have ha : CommandCode.setcal.available s.mode.mode = true := by rcases hm with hm | hm <;> rw [hm] <;> rfl
    exact runCommand_answers_unchanged (owner := actSetcal n) hs rfl ha (if_pos hn)
  · have ha : CommandCode.setcal.available s.mode.mode = true := by rcases hm with hm | hm <;> rw [hm] <;> rfl
    have hn : ¬ (n < 16 ∨ 4096 < n) := by omega
    refine runCommand_answers (owner := actSetcal n) _ hs rfl ha (if_neg hn)
      (LinkKept.setLock (LinkKept.refl _) _)
      (((KeptBut.refl _ _).setPosition _ (by simp)).setLock _ (by simp) (by simp)) ⟨rfl, ?_⟩
    exact causesWhere_lock s.position.lock .noFix ▸ ((Raised.refl (s.admitted .setcal)).setLock .noFix).answer _ _
  · have ha : CommandCode.setpos.available s.mode.mode = true := decide_eq_true hm
    refine runCommand_answers (owner := actSetpos p) _ hs rfl ha rfl
      (LinkKept.setLock (LinkKept.refl _) _)
      (((KeptBut.refl _ _).setPosition _ (by simp)).setLock _ (by simp) (by simp)) ⟨rfl, ?_⟩
    exact causesWhere_lock s.position.lock .doubt ▸ ((Raised.refl (s.admitted .setpos)).setLock .doubt).answer _ _

/-- Settles O26: the settings are replaced, and then the fix interval limit is checked. -/
theorem setfixReplacesWindowAndLimit : Obligations.SetfixReplacesWindowAndLimit := by
  intro s w m hs
  refine ⟨fun hb => runCommand_answers_unchanged (owner := actSetfix _) hs rfl rfl (if_pos hb), fun h10 h5000 hm => ?_⟩
  have hok : ¬ (w < 10 ∨ 5000 < w ∨ 65535 < m) := by omega
  obtain ⟨u, hu⟩ : ∃ u, u = (s.admitted .setfix).setPosition { s.position with window := w, intervalLimit := m } :=
    ⟨_, rfl⟩
  have hact : actSetfix { window := w, intervalLimit := m } (s.admitted .setfix) = .done u.checkInterval := by
    rw [hu]; exact if_neg hok
  have hpassed : u.position.intervalPassed = true ↔
      s.position.lock = .locked ∧ m ≠ 0 ∧ m * 100 < s.position.fixDistance / 256 := by
    rw [hu]; exact intervalPassed_iff _
  have hlink : LinkKept (s.admitted .setfix) u := hu ▸ LinkKept.refl _
  have hkept : KeptBut [.position] (s.admitted .setfix) u := hu ▸ (KeptBut.refl _ _).setPosition _ (by simp)
  refine ⟨fun hp => ?_, fun hp => ?_⟩
  · have hraised : Raised [] (s.admitted .setfix) u := hu ▸ Raised.refl _
    have hset := hraised.checkInterval
    rw [hpassed.2 hp] at hset
    refine runCommand_answers (owner := actSetfix _) _ hs rfl rfl hact hlink.checkInterval
      (KeptBut.checkInterval (hu ▸ (KeptBut.refl _ _).setPosition _ (by simp)) (by simp) (by simp))
      ⟨?_, hset.answer _ _⟩
    rw [State.answer_position, checkInterval_position, hpassed.2 hp, hu]
    rfl
  · rw [← hpassed] at hp
    rw [checkInterval_of_not_passed hp] at hact
    exact runCommand_answers (owner := actSetfix _) u hs rfl rfl hact hlink hkept (by rw [hu]; rfl)

/-! ### A pulse and the two expiries -/

/-- Settles O27: the distances move, and then the two limits are checked against them. -/
theorem pulseMovesTheTrain : Obligations.PulseMovesTheTrain := by
  intro s d hr rp cal fix travelled passed expired hcal hrp hfix htravelled hpassed hexpired
  have hp : (s.movePulse d).position.intervalPassed = passed := by
    rw [hpassed, Bool.eq_iff_iff, intervalPassed_iff, decide_eq_true_iff, hfix, hcal]
    rfl
  have hm : (s.movePulse d).mode = { s.mode with holdTravelled := travelled } := by
    rw [htravelled, hcal]
    exact travel_eq _ _
  have he : (s.movePulse d).checkInterval.mode.holdPassed = expired := by
    rw [hexpired, Bool.eq_iff_iff, holdPassed_iff, decide_eq_true_iff, checkInterval_mode, hm]
  have hraised : Raised [] s (s.movePulse d) := Raised.refl s
  have hlink : LinkKept s (s.movePulse d) := LinkKept.refl s
  have hkept : KeptBut [.position, .mode, .attention] s (s.movePulse d) :=
    ((KeptBut.refl _ _).setPosition _ (by simp)).setMode _ (by simp)
  refine ⟨_, unlessHeld_released hr, hlink.checkInterval.checkHold,
    (hkept.checkInterval (by simp) (by simp)).checkHold (by simp) (by simp), ?_, ?_, ?_⟩
  · rw [checkHold_position, checkInterval_position, hp]
    simp [State.movePulse, pulse_eq, holdPosition, holdSigned, satDistance, hrp, hfix, hcal]
  · rw [checkHold_mode, he, checkInterval_mode, hm]
  · have := hraised.checkInterval.checkHold
    rwa [hp, he, List.nil_append, ← causesWhere_append] at this

/-- Settles O28: each expiry is its check, which acts only where the limit has been passed. -/
theorem expiriesActWhenPassed : Obligations.ExpiriesActWhenPassed := by
  refine ⟨fun s hr h => ?_, fun s hr h => ?_, fun s hr h => ?_, fun s hr h => ?_⟩
  · rw [← intervalPassed_iff] at h
    have hraised := (Raised.refl s).checkInterval
    rw [h] at hraised
    refine ⟨_, unlessHeld_released hr, (LinkKept.refl s).checkInterval,
      (KeptBut.refl _ _).checkInterval (by simp) (by simp), ?_, hraised⟩
    rw [checkInterval_position, h]
    rfl
  · rw [← intervalPassed_iff] at h
    exact (unlessHeld_released hr).trans (congrArg _ (checkInterval_of_not_passed h))
  · rw [← holdPassed_iff] at h
    have hraised := (Raised.refl s).checkHold
    rw [h] at hraised
    refine ⟨_, unlessHeld_released hr, (LinkKept.refl s).checkHold,
      (KeptBut.refl _ _).checkHold (by simp) (by simp), ?_, hraised⟩
    rw [checkHold_mode, h]
    rfl
  · rw [← holdPassed_iff] at h
    exact (unlessHeld_released hr).trans (congrArg _ (checkHold_of_not_passed h))

end Sys2Proof.Machine
end

section
/-! PROOFS. What the resets set and keep, and that the state after power-on meets every invariant. -/

namespace Sys2Proof.Machine

/-! ### The values after a reset -/

theorem reset_atPowerOn : State.reset.atPowerOn none { laddr := 0, lrate := 0, trate := false } :=
  ⟨rfl, rfl, rfl, rfl, rfl, rfl, rfl, rfl, rfl⟩

theorem powerOnValues_atPowerOn (s : State) (straps : Straps) :
    (s.powerOnValues straps).atPowerOn s.position.reception straps :=
  ⟨rfl, rfl, rfl, rfl, rfl, rfl, rfl, rfl, rfl⟩

/-- With RESET_N released, a software reset that is due is carried out. -/
theorem exec_softwareReset {s : State} (hr : s.resetHeld = false) (h : s.mode.resetStage = .due) :
    exec .softwareReset s = .next s.softReset :=
  (unlessHeld_released hr).trans (congrArg _ (if_pos h))

/-- Settles O3: each reset's values stand in its definition, block by block. -/
theorem resetsSetTheirValues : Obligations.ResetsSetTheirValues := by
  refine ⟨reset_atPowerOn, fun s straps => ?_, fun s straps => ?_, fun s => rfl, fun s hr h => ?_⟩
  · exact ⟨s.powerOnValues straps, rfl, powerOnValues_atPowerOn s straps, rfl, rfl⟩
  · exact ⟨(s.powerOnValues straps).setResetHeld true, rfl, powerOnValues_atPowerOn s straps, rfl, rfl⟩
  · exact ⟨s.softReset, exec_softwareReset hr h, rfl, rfl, rfl, rfl, rfl, rfl, rfl, rfl, rfl, hr, rfl⟩

/-! ### The invariants after power-on -/

theorem eq_freed_of_mem_reset {x : Slot} (h : x ∈ State.reset.table.slots) : x = Slot.freed :=
  List.eq_of_mem_replicate h

theorem freed_sound : Slot.freed.sound := ⟨nofun, nofun, nofun⟩

theorem reset_poolSound : State.reset.poolSound := ⟨rfl, rfl⟩

/-- Every slot is FREE, so no two images stand in the table together. -/
theorem reset_viewSound : State.reset.viewSound := by
  refine ⟨fun x hx => eq_freed_of_mem_reset hx ▸ freed_sound, fun i j x y r q _ hx _ hr _ => ?_,
    fun i j x y r q _ hx _ hr _ => ?_⟩
  · rw [eq_freed_of_mem_reset (List.mem_of_getElem? hx)] at hr
    exact nomatch hr
  · rw [eq_freed_of_mem_reset (List.mem_of_getElem? hx)] at hr
    exact nomatch hr

theorem reset_recordsSound : State.reset.recordsSound := by
  refine ⟨fun x hx => ?_, nofun⟩
  rw [eq_freed_of_mem_reset hx]
  exact ⟨nofun, nofun⟩

theorem reset_healthSound : State.reset.healthSound := by
  refine ⟨rfl, fun h hh => ?_⟩
  obtain rfl : h = CarHealth.clear := List.eq_of_mem_replicate hh
  exact ⟨Nat.zero_le _, Nat.zero_le _⟩

theorem reset_positionSound : State.reset.positionSound :=
  (positionSound_iff _).2 ⟨powerOn_sound none, modePowerOn_sound⟩

theorem reset_modeSound : State.reset.modeSound :=
  ⟨fun _ => ⟨fun _ hx => eq_freed_of_mem_reset hx, rfl, rfl, rfl, rfl, rfl, rfl, nofun⟩, fun h => absurd rfl h,
    (by decide : 10 ≤ 20), (by decide : 20 ≤ 40)⟩

theorem reset_leanSound : State.reset.leanSound := by
  refine ⟨rfl, fun c hc => ?_, nofun⟩
  obtain rfl : c = CarOutput.clear := List.eq_of_mem_replicate hc
  exact ⟨by decide, by decide⟩

theorem reset_busSound : State.reset.busSound := by
  refine ⟨⟨nofun, ?_⟩, nofun, nofun, nofun⟩
  rintro (h | h | h) <;> exact nomatch h

theorem reset_settingsSound : State.reset.settingsSound := by
  refine ⟨nofun, ?_, ?_, ⟨Nat.zero_le _, nofun⟩, nofun⟩
  · unfold Limits.sound; decide
  · decide

theorem reset_portSound : State.reset.portSound :=
  ⟨⟨rfl, rfl⟩, trivial, rfl, fun _ => rfl, ⟨rfl, rfl, rfl⟩, Nat.zero_le _, Nat.zero_le _, Nat.zero_le _⟩

/-- Settles O18: the invariants, each by its own lemma. -/
theorem resetMeetsTheInvariants : Obligations.ResetMeetsTheInvariants :=
  ⟨reset_poolSound, reset_viewSound, reset_recordsSound, reset_healthSound, reset_positionSound, reset_modeSound,
    reset_leanSound, reset_busSound, reset_settingsSound, reset_portSound⟩

end Sys2Proof.Machine
end

section
/-! PROOFS. The marker strobe, the bytes of a marker message, and the judgement of a message taken whole. -/

namespace Sys2Proof.Machine

/-! ### The strobe and the bytes before the sixth -/

/-- The antenna stands behind the lead position by the effective reader offset (R8). -/
theorem antenna_eq (s : State) : s.antenna = if s.position.travel = .ascending
    then ((s.position.rp / 256 : Nat) : Int) - s.demand.readerOffset
    else ((s.position.rp / 256 : Nat) : Int) + s.demand.readerOffset := by
  unfold State.antenna State.leadCm wholeCm
  cases s.position.travel <;> simp [ahead, Int.sub_eq_add_neg]

theorem readerOffset_of {d : DemandUnit} {reader : Nat} (hn : d.composition = none → reader = 0)
    (hs : ∀ c, d.composition = some c → reader = if d.lead = .endA then c.reader else c.length - c.reader) :
    d.readerOffset = reader := by
  cases hc : d.composition with
  | none => rw [readerOffset_none hc, hn hc]
  | some c => rw [readerOffset_some hc, hs c hc]

/-- Only the start mark begins a message (R174). -/
theorem markerByte_ignored {s : State} (h : s.position.reception = none) {b : Byte} (hb : b ≠ 0xA5#8) (ok : Bool) :
    s.markerByte b ok = s := by
  simp [State.markerByte, h, startMark, hb]

theorem markerByte_begins {s : State} (h : s.position.reception = none) (ok : Bool) : s.markerByte 0xA5#8 ok =
    s.setPosition { s.position with reception := some { bytes := [0xA5#8], stopBad := !ok } } := by
  simp [State.markerByte, h, startMark]

/-- A byte before the sixth is added to its message (R174). -/
theorem markerByte_adds {s : State} {m : MarkerReception} (h : s.position.reception = some m) (hl : m.bytes.length < 5)
    (b : Byte) (ok : Bool) :
    s.markerByte b ok = s.setPosition { s.position with reception := some (m.add b ok) } := by
  have hc : m.lastComing = false := by simp [MarkerReception.lastComing, markerMessageLength]; omega
  simp [State.markerByte, h, hc]

/-- Settles O29: the strobe sets the latch, and the byte rows set the message in reception. -/
theorem strobesLatchAndMarkerBytesGather : Obligations.StrobesLatchAndMarkerBytesGather := by
  refine ⟨fun s reader hr hn hs => ?_, fun s b ok hr h hb => ?_, fun s ok hr h => ?_, fun s m b ok hr h hl => ?_,
    fun s m hr h => ?_, fun s hr h => ?_⟩
  · have hraised := Raised.raiseIf (u := s.setPosition s.strobe.position) (Raised.refl s) s.position.latch.isSome
      .markerOverrun
    rw [List.nil_append, causesWhere_one] at hraised
    refine ⟨s.strobe, unlessHeld_released hr,
      LinkKept.raiseIf (u := s.setPosition s.strobe.position) (LinkKept.refl s) _ _,
      ((KeptBut.refl _ _).setPosition _ (by simp)).raiseIf _ _ (by simp), ?_, hraised⟩
    rw [strobe_position, antenna_eq, readerOffset_of hn hs]
    rfl
  · exact (unlessHeld_released hr).trans (congrArg _ (markerByte_ignored h hb ok))
  · refine ⟨_, unlessHeld_released hr, ?_⟩
    rw [markerByte_begins h]
    exact ⟨LinkKept.refl s, (KeptBut.refl _ _).setPosition _ (by simp), rfl⟩
  · refine ⟨_, unlessHeld_released hr, ?_⟩
    rw [markerByte_adds h hl]
    exact ⟨LinkKept.refl s, (KeptBut.refl _ _).setPosition _ (by simp), rfl⟩
  · refine ⟨s.discardFailed, (unlessHeld_released hr).trans (congrArg _ ?_), LinkKept.refl s,
      (KeptBut.refl _ _).setPosition _ (by simp), discardFailed_position s⟩
    rw [h]; rfl
  · refine (unlessHeld_released hr).trans (congrArg _ ?_)
    rw [h]; rfl

/-! ### The sixth byte -/

/-- The sixth byte completes the message in either row (R174; log 10). -/
theorem exec_sixthByte {s : State} {m : MarkerReception} {b : Byte} {ok : Bool} {i : Instr} (hr : s.resetHeld = false)
    (h : s.position.reception = some m) (hl : m.bytes.length = 5)
    (hi : i = .markerMessage b ok ∨ i = .markerByte b ok) : exec i s = .next (s.takeMessage (m.add b ok)) := by
  have hc : m.lastComing = true := by simp [MarkerReception.lastComing, markerMessageLength, hl]
  rcases hi with rfl | rfl
  · simp [exec, execMarkerMessage, unlessHeld, hr, h, hc]
  · simp [exec, execMarkerByte, State.markerByte, unlessHeld, hr, h, hc]

/-- The check of a message of six bytes (R163, R174). -/
theorem good_iff {m : MarkerReception} (hl : m.bytes.length = 6) :
    m.good = true ↔ m.stopBad = false ∧ checkOf (m.bytes.take 4) = wordAt m.bytes 4 := by
  simp [MarkerReception.good, checkAgrees, beforeCheck, hl]

section
variable {s : State} {m : MarkerReception}

theorem takeMessage_failed (h : ¬ m.good = true) : s.takeMessage m = s.discardFailed := by
  simp [State.takeMessage, h]

theorem takeMessage_unpaired (h : m.good = true) (hl : s.position.latch = none) :
    s.takeMessage m = s.discardUnpaired := by
  simp [State.takeMessage, h, hl]

theorem takeMessage_unmatched (h : m.good = true) {antenna : Int} (hl : s.position.latch = some antenna)
    (hn : s.table.slotOfMarker m.id = none) : s.takeMessage m = s.unmatched := by
  simp [State.takeMessage, h, hl, hn]

/-- The state in which a matched fix is judged: the message and the latch are used up (R9). -/
def State.paired (s : State) : State := s.setPosition { s.position with reception := none, latch := none }

theorem takeMessage_matched (h : m.good = true) {antenna : Int} (hl : s.position.latch = some antenna) {n : Nat}
    (hn : s.table.slotOfMarker m.id = some n) :
    s.takeMessage m = s.paired.judgeFix n ((s.table.markerPosition n : Int) - antenna) := by
  simp [State.takeMessage, h, hl, hn]
  rfl

end

/-! ### The fix -/

theorem markerPosition_eq {t : CurveTable} {n : Nat} {x : Slot} {r : Record} {k : Marker} (hx : t.slots[n]? = some x)
    (hr : x.live = some r) (hk : r.marker = some k) : t.markerPosition n = k.position := by
  simp [CurveTable.markerPosition, slot_of_getElem? hx, Slot.liveMarker, hr, hk]

/-- The table of R12. -/
theorem accepts_iff (p : PositionUnit) (e : Int) : p.accepts e = true ↔
    p.lock = .noFix ∨ e.natAbs ≤ p.window
      ∨ p.lock = .doubt ∧ ∃ c, p.candidate = some c ∧ (e - c).natAbs ≤ p.window := by
  unfold PositionUnit.accepts
  cases p.lock <;> cases p.candidate <;> simp

theorem judgeFix_accepted {s : State} {e : Int} (h : s.position.accepts e = true) (n : Nat) :
    s.judgeFix n e = s.applyFix n e := if_pos h

theorem judgeFix_refused {s : State} {e : Int} (h : ¬ s.position.accepts e = true) (n : Nat) :
    s.judgeFix n e = s.rejectFix e := if_neg h

section
variable (s : State) (n : Nat) (e : Int)

theorem applyFix_position : (s.applyFix n e).position = { s.position with
    rp := s.position.corrected e, fixDistance := 0, candidate := none, lock := .locked } := rfl

theorem applyFix_table {x : Slot} (hx : s.table.slots[n]? = some x) : (s.applyFix n e).table = { s.table with
    slots := s.table.slots.set n
      { x with confirmed := true, confirmedAt := some (s.position.corrected e / 256) } } := by
  simp [State.applyFix, CurveTable.putSlot, slot_of_getElem? hx, Slot.confirm, wholeCm]

/-- FIXED is latched into every car of the composition (R111). -/
theorem applyFix_cars (j : Nat) : (s.applyFix n e).demand.cars[j]? = (s.demand.cars[j]?).map fun c =>
    if j + 1 ≤ s.demand.carCount then { c with fixed := { latched := true, delivered := false } } else c := by
  simp [State.applyFix, DemandUnit.latchFixed, mapNumbered_getElem?, Nat.add_comm 1 j, LatchedFlag.latch]

theorem rejectFix_position :
    (s.rejectFix e).position = { s.position with candidate := some e, lock := .doubt } := rfl

end

/-- A refused fix: FIX_REJECTED, and the lock to DOUBT, where it was LOCKED (R12). -/
theorem Raised.rejectFix {s u : State} (e : Int) (h : Raised [] s u) (hn : u.position.lock ≠ .noFix) :
    Raised (if u.position.lock = .locked then [.fixRejected, .lockChanged] else []) s (u.rejectFix e) := by
  have hrej := Raised.raiseIf (u := u.setPosition { u.position with candidate := some e }) h
    (decide (u.position.lock = .locked)) .fixRejected
  have := hrej.setLock .doubt
  unfold State.rejectFix
  cases hl : u.position.lock <;> simp_all [causesWhere]

/-- Settles O30: the check, the latch, the live images and the window judge the message in turn. -/
theorem markerMessageIsJudged : Obligations.MarkerMessageIsJudged := by
  intro s m b ok i bytes id hr hm hl hi hbytes hid
  have hexec := exec_sixthByte hr hm hl hi
  have hgood : (m.add b ok).good = true ↔
      (m.stopBad || !ok) = false ∧ checkOf (bytes.take 4) = wordAt bytes 4 := by
    rw [hbytes]
    exact good_iff (by simp [MarkerReception.add, hl])
  have hmid : (m.add b ok).id = id := by rw [hid, hbytes]; rfl
  refine ⟨fun hbad => ?_, fun hstop hok hcheck => ?_⟩
  · have hf : ¬ (m.add b ok).good = true := by
      rw [hgood]
      rintro ⟨h1, h2⟩
      rcases hbad with h | h | h
      · simp [h] at h1
      · simp [h] at h1
      · exact h h2
    rw [takeMessage_failed hf] at hexec
    exact ⟨_, hexec, LinkKept.refl s, (KeptBut.refl _ _).setPosition _ (by simp), discardFailed_position s⟩
  have hg : (m.add b ok).good = true := hgood.2 ⟨by simp [hstop, hok], hcheck⟩
  refine ⟨fun hlatch => ?_, fun antenna hlatch => ⟨fun hno => ?_, fun n x r k e rp hat hlive hmark he hrp => ?_⟩⟩
  · rw [takeMessage_unpaired hg hlatch] at hexec
    exact ⟨_, hexec, LinkKept.refl s, (KeptBut.refl _ _).setPosition _ (by simp), discardUnpaired_position s⟩
  · rw [takeMessage_unmatched hg hlatch (by rw [hmid]; exact (slotOfMarker_none _ _).2 hno)] at hexec
    exact ⟨_, hexec, LinkKept.refl s, ((KeptBut.refl _ _).setPosition _ (by simp)).raise _ (by simp),
      unmatched_position s, Raised.raise (Raised.refl s) _⟩
  · have hx : s.table.slots[n]? = some x := hat.1
    have hslot : s.table.slotOfMarker (m.add b ok).id = some n := by
      rw [hmid]; exact (slotOfMarker_some _ _ _).2 ⟨x, hat⟩
    have hrp' : s.paired.position.corrected e = rp := hrp.symm
    rw [takeMessage_matched hg hlatch hslot, markerPosition_eq hx hlive hmark, ← he] at hexec
    have hkept : ∀ named, Block.position ∈ named → KeptBut named s s.paired := fun named h =>
      (KeptBut.refl named s).setPosition _ h
    refine ⟨fun hacc => ?_, fun href => ?_⟩
    · rw [judgeFix_accepted ((accepts_iff s.paired.position e).2 hacc)] at hexec
      refine ⟨_, hexec, LinkKept.setLock (LinkKept.refl s) _,
        ((((hkept _ (by simp)).setPosition _ (by simp)).setTable _ (by simp)).setDemand _ (by simp)).setLock _ (by simp)
          (by simp), ?_, ?_, rfl, applyFix_cars s.paired n e, ?_⟩
      · rw [applyFix_position, hrp']; rfl
      · rw [applyFix_table s.paired n e hx, hrp']; rfl
      · exact causesWhere_lock s.position.lock .locked ▸ Raised.setLock (Raised.refl s) .locked
    · have hn : s.paired.position.lock ≠ .noFix := fun h => href (Or.inl h)
      rw [judgeFix_refused (mt (accepts_iff s.paired.position e).1 href)] at hexec
      exact ⟨_, hexec, ((LinkKept.refl s).raiseIf _ _).setLock _,
        (((hkept _ (by simp)).setPosition _ (by simp)).raiseIf _ _ (by simp)).setLock _ (by simp) (by simp),
        rejectFix_position _ _, Raised.rejectFix e (u := s.paired) (Raised.refl s) hn⟩

end Sys2Proof.Machine
end

section
/-! PROOFS. The fence outside the table: the snapshot, the timer, the plans, and CHANGED. -/

namespace Sys2Proof.Machine

/-! ### What a fence leaves of each part -/

theorem exec_fence_stopped {s : State} (hr : s.resetHeld = false) (h : s.timer.running = false) :
    exec .fence s = .next s :=
  (unlessHeld_released hr).trans (congrArg _ (if_neg (by rw [h]; exact Bool.false_ne_true)))

theorem takeFence_linkKept (s : State) : LinkKept s s.takeFence := by
  simp [LinkKept, takeFence_link]

/-- A fence leaves the health, the mode, the straps, the RESET_N level and the queue. -/
theorem takeFence_keptBut (s : State) :
    KeptBut [.position, .table, .timer, .demand, .poll, .attention] s s.takeFence := by
  refine ⟨fun b => ?_, rfl, rfl, rfl⟩
  cases b
  case health => exact Or.inr rfl
  case mode => exact Or.inr rfl
  all_goals exact Or.inl (by simp)

theorem takeFence_position {s : State} {length : Nat} (h : s.timer.cycleLength = some length) :
    s.takeFence.position = s.position.takeSnapshot length := by
  show s.position.takeSnapshot (s.timer.cycleLength.getD s.timer.period) = _
  rw [h]
  rfl

theorem takeFence_timer (s : State) : s.takeFence.timer = { s.timer with
    cycleLength := some s.timer.period
    fencePulses := s.timer.fencePulses + 1
    overruns := if s.poll.pass.isSome then bump s.timer.overruns else s.timer.overruns } := rfl

theorem takeFence_poll (s : State) : s.takeFence.poll = s.poll.fence := rfl

/-! ### The two causes of the plans -/

theorem takeFence_isSet_overrun (s : State) :
    s.takeFence.link.isSet .overrun = (s.link.isSet .overrun || s.poll.pass.isSome) := by
  simp [takeFence_link, isSet_raiseIf]

theorem takeFence_isSet_swapped (s : State) :
    s.takeFence.link.isSet .swapped = (s.link.isSet .swapped || s.poll.standby.isSome) := by
  simp [takeFence_link, isSet_raiseIf]

/-! ### CHANGED -/

/-- The look range of R110: from the car to the seventh preview step ahead of it. -/
theorem lookMeets_iff (travel : TravelSense) (p : Int) (step : Nat) (e : Extent) : lookMeets travel p step e = true ↔
    if travel = .ascending then (e.e0 : Int) ≤ p + ((7 * step : Nat) : Int) ∧ p < (e.e3 : Int)
    else (e.e0 : Int) ≤ p ∧ p - ((7 * step : Nat) : Int) < (e.e3 : Int) := by
  cases travel <;> simp [lookMeets]

theorem carPositionOf_succ (s : State) (lead j : Nat) : s.carPositionOf lead (1 + j) = (s.carPositions lead)[j]? := by
  simp [State.carPositionOf, Nat.add_comm 1 j]

theorem looksAtChange_eq (s : State) (k : Nat) : s.looksAtChange k =
    (s.carPositionOf s.position.snapshot.lead k).any fun p =>
      s.table.changedExtents.any (lookMeets s.position.travel p s.demand.limits.previewStep) := by
  unfold State.looksAtChange
  cases s.carPositionOf s.position.snapshot.lead k <;> rfl

/-- Each car's output state after a fence: CHANGED is latched where the car stands at a place whose look range meets a
changed extent. -/
theorem takeFence_cars (s : State) (j : Nat) : s.takeFence.demand.cars[j]? = (s.demand.cars[j]?).map fun o =>
    if ((s.carPositions (s.position.rp / 256))[j]?).any fun p => s.takeFence.table.changedExtents.any
      (lookMeets s.position.travel p s.demand.limits.previewStep)
    then { o with changed := { latched := true, delivered := false } } else o := by
  have hlook : s.fenceSnapshot.fenceTable.looksAtChange (1 + j) =
      ((s.carPositions (s.position.rp / 256))[j]?).any fun p => s.takeFence.table.changedExtents.any
        (lookMeets s.position.travel p s.demand.limits.previewStep) := by
    rw [looksAtChange_eq, carPositionOf_succ]
    rfl
  show (mapNumbered _ 1 s.demand.cars)[j]? = _
  rw [mapNumbered_getElem?, hlook]
  rfl

/-- A car whose look range meets no changed extent is left as it is. -/
theorem takeFence_cars_kept {s : State} {j : Nat} {o : CarOutput} (ho : s.demand.cars[j]? = some o)
    (h : ∀ p, (s.carPositions (s.position.rp / 256))[j]? = some p → ∀ x ∈ s.takeFence.table.changedExtents,
      ¬ lookMeets s.position.travel p s.demand.limits.previewStep x = true) :
    s.takeFence.demand.cars[j]? = some o := by
  rw [takeFence_cars, ho, Option.map_some, if_neg]
  cases hp : (s.carPositions (s.position.rp / 256))[j]? with
  | none => simp
  | some p =>
    rw [Option.any_some, List.any_eq_true]
    rintro ⟨x, hx, hm⟩
    exact h p hp x hx hm

/-- A car whose look range meets a changed extent has CHANGED latched, its mark clear. -/
theorem takeFence_cars_changed {s : State} {j : Nat} {o : CarOutput} {p : Int} {x : Extent}
    (ho : s.demand.cars[j]? = some o) (hp : (s.carPositions (s.position.rp / 256))[j]? = some p)
    (hx : x ∈ s.takeFence.table.changedExtents)
    (h : lookMeets s.position.travel p s.demand.limits.previewStep x = true) :
    s.takeFence.demand.cars[j]? = some { o with changed := { latched := true, delivered := false } } := by
  rw [takeFence_cars, ho, Option.map_some, if_pos]
  rw [hp, Option.any_some, List.any_eq_true]
  exact ⟨x, hx, h⟩

/-- Settles O49: part by part, from what the fence leaves of each. -/
theorem fenceBeginsTheCycle : Obligations.FenceBeginsTheCycle := by
  refine ⟨fun s hr h => exec_fence_stopped hr h, fun s length lead active hr hrun hlen hlead hactive => ?_⟩
  subst hlead hactive
  refine ⟨_, exec_fence hr hrun, takeFence_linkKept s, takeFence_keptBut s, takeFence_position hlen, takeFence_timer s,
    takeFence_poll s, fun h => ?_, fun h => ?_, fun h => ?_, fun h => ?_, takeFence_causes s, takeFence_isSet s, ?_, ?_,
    rfl, fun j o ho => ⟨fun h => ?_, fun p x hp hx hm => ?_⟩⟩
  · rw [takeFence_isSet_overrun, h, Bool.or_true]
  · rw [takeFence_isSet_swapped, h, Bool.or_true]
  · rw [takeFence_isSet_overrun, h, Option.isSome_none, Bool.or_false]
  · rw [takeFence_isSet_swapped, h, Option.isSome_none, Bool.or_false]
  · simp [takeFence_link]
  · simp [takeFence_link]
  · exact takeFence_cars_kept ho fun p hp x hx hm => h p hp x hx ((lookMeets_iff _ _ _ _).1 hm)
  · exact takeFence_cars_changed ho hp hx ((lookMeets_iff _ _ _ _).2 hm)

end Sys2Proof.Machine
end

section
/-! SUPPORT. The Curve Table by slot number: the slot of each number after a change of the table, and the slot that a
search finds (R19, R29). -/

namespace Sys2Proof.Machine

/-! ### The slot of a number -/

/-- A slot that holds anything is one of the table. -/
theorem getElem?_of_slot_ne_freed {t : CurveTable} {i : Nat} (h : t.slot i ≠ Slot.freed) :
    t.slots[i]? = some (t.slot i) := by
  cases hx : t.slots[i]? with
  | none => exact absurd (by simp [CurveTable.slot, hx]) h
  | some x => rw [slot_of_getElem? hx]

section
variable (t : CurveTable)

/-- What a FREE slot meets, every slot of the table meets where it does so by number. -/
theorem forall_mem_slots_iff {P : Slot → Prop} (hfreed : P Slot.freed) :
    (∀ x ∈ t.slots, P x) ↔ ∀ i, P (t.slot i) := by
  constructor
  · intro h i
    by_cases hi : t.slot i = Slot.freed
    · rwa [hi]
    · exact h _ (List.mem_of_getElem? (getElem?_of_slot_ne_freed hi))
  · intro h x hx
    obtain ⟨i, hi⟩ := List.getElem?_of_mem hx
    exact slot_of_getElem? hi ▸ h i

theorem slot_putSlot (i : Nat) (x : Slot) (j : Nat) :
    (t.putSlot i x).slot j = if i = j ∧ i < t.slots.length then x else t.slot j := by
  unfold CurveTable.slot CurveTable.putSlot
  rw [List.getD_eq_getElem?_getD, List.getD_eq_getElem?_getD]
  by_cases hij : i = j
  · subst hij
    by_cases hi : i < t.slots.length
    · simp [hi]
    · simp [hi]
  · simp [hij]

theorem slot_putSlot_ne {i j : Nat} (x : Slot) (h : i ≠ j) : (t.putSlot i x).slot j = t.slot j := by
  rw [slot_putSlot, if_neg fun hi => h hi.1]

/-- A table whose every slot is free. -/
theorem slot_stopped (i : Nat) : t.stopped.slot i = Slot.freed := by
  simp only [CurveTable.slot, CurveTable.stopped, List.getD_eq_getElem?_getD, List.getElem?_replicate]
  split <;> rfl

theorem slot_empty (i : Nat) : CurveTable.empty.slot i = Slot.freed := slot_stopped .empty i

end

theorem slot_putSlot_same {t : CurveTable} {i : Nat} (x : Slot) (h : t.slots[i]? = some (t.slot i)) :
    (t.putSlot i x).slot i = x := by
  rw [slot_putSlot, if_pos ⟨rfl, (List.getElem?_eq_some_iff.1 h).1⟩]

/-- A finding carried out on a table's slot of a number, where the slots are changed each by its own finding. -/
theorem slot_applySections (t : CurveTable) (f : Nat → Slot → Option WithdrawFinding)
    (fs : List (Option WithdrawFinding)) (hfs : ∀ j, fs[j]? = (t.slots[j]?).map (f j)) (hfreed : ∀ j, f j Slot.freed = none) (j : Nat) :
    (t.applySections fs).slot j = applySection (t.slot j) (f j (t.slot j)) := by
  simp only [CurveTable.slot, CurveTable.applySections, List.getD_eq_getElem?_getD, List.getElem?_zipWith, hfs]
  cases t.slots[j]? <;> simp [hfreed, applySection]

theorem slot_sections (t : CurveTable) (f : SectionFields) (j : Nat) :
    (t.applySections (t.sectionFindings f)).slot j = applySection (t.slot j) (t.sectionFinding f j (t.slot j)) :=
  slot_applySections t (t.sectionFinding f) _
    (fun _ => by rw [CurveTable.sectionFindings, mapFindings_getElem?, Nat.zero_add]) (fun _ => rfl) j

theorem slot_cleared (t : CurveTable) (j : Nat) :
    t.cleared.slot j = applySection (t.slot j) (t.slot j).clearFinding :=
  slot_applySections t (fun _ => Slot.clearFinding) _ (fun _ => List.getElem?_map) (fun _ => rfl) j

/-- The slot work of a fence, by number. -/
theorem slot_fence (s : State) (j : Nat) :
    ((s.table.afterWork s.slotWorks).judgeHorizon s.position.travel s.position.snapshot.lead).slot j =
      ((s.table.slot j).fence (decide (s.mode.mode = .running)) s.positionTest s.position.snapshot.lead).slot := by
  simp only [CurveTable.slot, CurveTable.judgeHorizon, CurveTable.afterWork, State.slotWorks, List.map_map,
    List.getD_eq_getElem?_getD, List.getElem?_map]
  cases s.table.slots[j]? <;> rfl

/-! ### The searches, by number -/

/-- A condition that no FREE slot meets is met by no slot where it is met by none by number. -/
theorem noSlot_iff {t : CurveTable} {m : Nat → Slot → Prop} (hfreed : ∀ j, ¬ m j Slot.freed) :
    t.noSlot m ↔ ∀ j, ¬ m j (t.slot j) := by
  constructor
  · intro h j
    by_cases hj : t.slot j = Slot.freed
    · rw [hj]; exact hfreed j
    · exact h j _ (getElem?_of_slot_ne_freed hj)
  · intro h j y hy
    exact slot_of_getElem? hy ▸ h j

theorem lowestAt_slot {t : CurveTable} {m : Nat → Slot → Prop} {i : Nat} {x : Slot} (h : t.lowestAt m i x) :
    t.slots[i]? = some (t.slot i) ∧ m i (t.slot i) := by
  obtain ⟨hx, hm, _⟩ := h
  rw [slot_of_getElem? hx]
  exact ⟨hx, hm⟩

theorem slotOfKey_slot {t : CurveTable} {key i : Nat} (h : t.slotOfKey key = some i) :
    t.slots[i]? = some (t.slot i) ∧ ∃ r, (t.slot i).view = some r ∧ r.key = key := by
  obtain ⟨x, hx⟩ := (slotOfKey_some t key i).1 h
  exact lowestAt_slot hx

theorem lowestFree_slot {t : CurveTable} {i : Nat} (h : t.lowestFree = some i) :
    t.slots[i]? = some (t.slot i) ∧ (t.slot i).state = .free := by
  obtain ⟨x, hx⟩ := (lowestFree_some t i).1 h
  exact lowestAt_slot hx

theorem slotOfMarker_slot {t : CurveTable} {id i : Nat} (h : t.slotOfMarker id = some i) :
    t.slots[i]? = some (t.slot i) ∧ ∃ r, (t.slot i).live = some r := by
  obtain ⟨x, hx⟩ := (slotOfMarker_some t id i).1 h
  obtain ⟨hin, r, _, hl, _⟩ := lowestAt_slot hx
  exact ⟨hin, r, hl⟩

/-- A slot that a read answers with an image is one of the table. -/
theorem getElem?_of_returnedImage {t : CurveTable} {i : Nat} {r : Record} (h : (t.slot i).returnedImage = some r) :
    t.slots[i]? = some (t.slot i) :=
  getElem?_of_slot_ne_freed fun hf => by rw [hf] at h; exact nomatch h

/-- The slot CLOSER stages a record in is one of the table (R29). -/
theorem target_slot {a : Assembly} {t : CurveTable} {i : Nat} (h : a.target t = some i) :
    t.slots[i]? = some (t.slot i) := by
  unfold Assembly.target at h
  split at h
  · exact (lowestFree_slot h).1
  · exact (slotOfKey_slot h).1

end Sys2Proof.Machine
end

section
/-! PROOFS. Every step keeps the pool's sum. -/

namespace Sys2Proof.Machine

/-- The free count of the pool and the points that 64 slots hold make 512 (R37). -/
def PoolSum (slots : List Slot) (free : Nat) : Prop := slots.length = 64 ∧ free + heldPoints slots = 512

theorem poolSum_freed : PoolSum (List.replicate slotCount Slot.freed) poolSize := ⟨rfl, rfl⟩

/-- A slot replaced keeps the sum where the free count makes up for the points it held. -/
theorem PoolSum.set {slots : List Slot} {free newFree i : Nat} {x y : Slot} (h : PoolSum slots free)
    (hx : slots[i]? = some x) (hp : newFree + y.points = free + x.points) : PoolSum (slots.set i y) newFree := by
  obtain ⟨hlen, hsum⟩ := h
  have := heldPoints_set slots i x y hx
  exact ⟨by rw [List.length_set, hlen], by omega⟩

/-- A finding carried out on one slot keeps the sum: what it returns is what the slot no longer holds (R39). -/
theorem PoolSum.applyFinding {t : CurveTable} (h : PoolSum t.slots t.poolFree) {i : Nat}
    (hi : t.slots[i]? = some (t.slot i)) (f : WithdrawFinding) :
    PoolSum (t.applyFinding i f).slots (t.applyFinding i f).poolFree := by
  have hp : (f.apply (t.slot i)).points + f.returned (t.slot i) = (t.slot i).points :=
    points_applySection (t.slot i) (some f)
  refine h.set hi ?_
  show t.poolFree + f.returned (t.slot i) + _ = _
  omega

/-- Findings carried out on every slot keep the sum: what they return is what the slots no longer hold (R39). -/
theorem PoolSum.applySections {t : CurveTable} (h : PoolSum t.slots t.poolFree) {fs : List (Option WithdrawFinding)}
    (hfs : fs.length = t.slots.length) : PoolSum (t.applySections fs).slots (t.applySections fs).poolFree := by
  obtain ⟨hlen, hsum⟩ := h
  have := heldPoints_applySection t.slots fs hfs
  refine ⟨?_, ?_⟩
  · simp [CurveTable.applySections, hfs, hlen]
  · show t.poolFree + _ + heldPoints (List.zipWith applySection t.slots fs) = 512
    omega

/-- The slot work of a fence keeps the sum (R39). -/
theorem PoolSum.fence {s : State} (h : PoolSum s.table.slots s.table.poolFree) :
    PoolSum (s.table.afterWork s.slotWorks).slots (s.table.afterWork s.slotWorks).poolFree := by
  obtain ⟨hlen, hsum⟩ := h
  have := heldPoints_works (fun x => x.fence (decide (s.mode.mode = .running)) s.positionTest s.position.snapshot.lead)
    (fun x => points_fence x _ _ _) s.table.slots
  refine ⟨?_, ?_⟩
  · simp [CurveTable.afterWork, State.slotWorks, hlen]
  · show s.table.poolFree + _ + heldPoints (s.slotWorks.map SlotWork.slot) = 512
    unfold State.slotWorks
    omega

/-! ### CLOSER -/

/-- What CLOSER returns is what the slot it stages in holds for a pending image; a FREE slot holds none (R38). -/
theorem returnedPoints_of_target {a : Assembly} {t : CurveTable} {i : Nat} (h : a.target t = some i) :
    a.returnedPoints t = imagePoints (t.slot i).pendingImage := by
  unfold Assembly.target at h
  unfold Assembly.returnedPoints Assembly.amendedSlot
  split at h
  · have hnone := (Slot.empty_of_free (lowestFree_slot h).2).2
    simp [hnone, imagePoints]
  · rw [h]

/-- A staged slot holds its live image's points and the record's. -/
theorem points_stage (x : Slot) (r : Record) : (x.stage r).points = imagePoints x.live + r.points := rfl

theorem checkPool_none {a : Assembly} {t : CurveTable} (h : a.checkPool t = none) :
    a.total ≤ t.poolFree + a.returnedPoints t := by
  simpa [Assembly.checkPool] using h

theorem PoolSum.closer {s : State} (h : PoolSum s.table.slots s.table.poolFree) {a : Assembly} {i : Nat}
    (hc : a.closeRefusal s = none) (ht : a.target s.table = some i) :
    PoolSum (s.table.slots.set i ((s.table.slot i).stage a.record)) (a.freeAfter s.table) := by
  obtain ⟨hcomplete, _, _, _, _, _, _, hpool⟩ := closeRefusal_none hc
  refine h.set (target_slot ht) ?_
  have hroom := checkPool_none hpool
  have hback := returnedPoints_of_target ht
  rw [points_stage, record_points hcomplete]
  unfold Assembly.freeAfter Slot.points
  omega

/-- Every change of the Curve Table keeps the pool's sum. -/
theorem keepsTable_poolSum : KeepsTable fun t => PoolSum t.slots t.poolFree where
  stop _ _ := poolSum_freed
  openr _ _ _ h _ _ := h
  write _ _ _ _ h _ _ := h
  closer _ _ _ h _ hc ht := h.closer hc ht
  abandr _ h := h
  wdraw _ _ _ _ h hi := h.applyFinding (slotOfKey_slot hi).1 _
  wdsect t f h := h.applySections (mapFindings_length t f t.slots 0)
  clrtab _ h := h.applySections (List.length_map _)
  overw _ _ _ h hr := h.set (getElem?_of_returnedImage hr) rfl
  tsum _ h := h
  cover _ _ h := h
  horizon _ _ h := h
  confirm _ _ _ _ h hi := h.set (slotOfMarker_slot hi).1 rfl
  fence _ h := h.fence
  empty := poolSum_freed

/-- Settles O8: the pool's sum is a law of the table alone, which every change of the table keeps. -/
theorem poolIsConserved : Obligations.PoolIsConserved := step_keeps_table keepsTable_poolSum

end Sys2Proof.Machine
end

section
/-! SUPPORT. What a withdrawal and a fence make of one slot (R58 to R61, R74 to R77): the images and the marks it holds
after them. -/

namespace Sys2Proof.Machine

/-! ### The view and the state of a slot -/

section
variable {x : Slot}

theorem view_of_image {r : Record} (h : x.pending = .image r) : x.view = some r := by simp [Slot.view, h]

theorem view_of_none (h : x.pending = .none) : x.view = x.live := by simp [Slot.view, h]

theorem view_of_withdrawal (h : x.pending = .withdrawal) : x.view = x.live := by simp [Slot.view, h]

theorem pendingImage_of_none (h : x.pending = .none) : x.pendingImage = none := by simp [Slot.pendingImage, h]

theorem pendingImage_of_withdrawal (h : x.pending = .withdrawal) : x.pendingImage = none := by
  simp [Slot.pendingImage, h]

/-- A slot without a pending image is in the view by its live image (R33). -/
theorem view_of_pendingImage_none (h : x.pendingImage = none) : x.view = x.live := by
  cases hp : x.pending with
  | none => exact view_of_none hp
  | withdrawal => exact view_of_withdrawal hp
  | image r => simp [Slot.pendingImage, hp] at h

/-- An ARMED or ACTIVE slot does not fade. -/
theorem fade_of_published (h : x.state = .armed ∨ x.state = .active) : x.fade = none := by
  unfold Slot.state at h
  split at h
  · split at h <;> simp at h
  · split at h
    · simp at h
    · assumption

theorem fade_of_fading (h : x.state = .fading) : ∃ n, x.fade = some n := by
  unfold Slot.state at h
  split at h
  · split at h <;> simp at h
  · split at h
    · exact ⟨_, by assumption⟩
    · split at h <;> simp at h

/-- A slot whose state is neither FREE, STAGED nor FADING is ARMED or ACTIVE (R27). -/
theorem published_of_ne (hfree : x.state ≠ .free) (hstaged : x.state ≠ .staged) (hfading : x.state ≠ .fading) :
    x.state = .armed ∨ x.state = .active := by
  cases h : x.state <;> simp_all

/-- A slot in the view without a withdrawal is not FREE (R33). -/
theorem ne_free_of_view {r : Record} (h : x.view = some r) : x.state ≠ .free := fun hf => by
  obtain ⟨hl, hi⟩ := Slot.empty_of_free hf
  rw [view_of_pendingImage_none hi, hl] at h
  exact nomatch h

end

/-! ### A withdrawal -/

/-- A slot that may take a pending withdrawal: its live image does not fade (R58). -/
def Slot.Withdrawable (x : Slot) : Prop := (∃ r, x.live = some r) ∧ x.fade = none

theorem withdrawable_of_published {x : Slot} (h : x.state = .armed ∨ x.state = .active) : x.Withdrawable :=
  ⟨Slot.live_of_published h, fade_of_published h⟩

/-- A withdrawal is found to be pending for an ARMED or ACTIVE slot whose live image clashes with no other slot's view
(R58). -/
theorem judgeWithdraw_pending {t : CurveTable} {i : Nat} {x : Slot} {force : Bool} {r : Record} (hv : x.view = some r)
    (h : t.judgeWithdraw i x force = .pending) : x.Withdrawable ∧ t.withdrawClash i x = none := by
  unfold CurveTable.judgeWithdraw at h
  split at h
  · exact nomatch h
  · rename_i hfading
    split at h
    · exact nomatch h
    · rename_i hstaged
      split at h
      · exact nomatch h
      · refine ⟨withdrawable_of_published
          (published_of_ne (ne_free_of_view hv) hstaged fun hf => hfading (Or.inr hf)), ?_⟩
        cases hc : t.withdrawClash i x with
        | none => rfl
        | some f =>
          rw [hc, Option.getD_some] at h
          subst h
          unfold CurveTable.withdrawClash at hc
          split at hc
          · split at hc <;> simp at hc
          · exact nomatch hc
          · exact nomatch hc

theorem sectionFinding_pending {t : CurveTable} {f : SectionFields} {i : Nat} {x : Slot}
    (h : t.sectionFinding f i x = some .pending) : x.Withdrawable ∧ t.withdrawClash i x = none := by
  unfold CurveTable.sectionFinding at h
  split at h
  · exact nomatch h
  · rename_i r hv
    split at h
    · exact judgeWithdraw_pending hv (Option.some.inj h)
    · exact nomatch h

theorem clearFinding_pending {x : Slot} (h : x.clearFinding = some .pending) : x.Withdrawable := by
  unfold Slot.clearFinding at h
  split at h
  · exact nomatch h
  · rename_i hfree
    split at h
    · exact nomatch h
    · rename_i hfading
      split at h
      · exact nomatch h
      · rename_i hstaged
        exact withdrawable_of_published (published_of_ne hfree hstaged fun hf => hfading (Or.inr hf))

/-- What a finding leaves: a freed slot, the slot as it was, or the slot with a pending withdrawal (R59). -/
theorem applySection_cases (x : Slot) (f : Option WithdrawFinding) :
    applySection x f = Slot.freed ∨ applySection x f = x ∨ f = some .pending ∧ applySection x f = x.withdraw := by
  cases f with
  | none => exact Or.inr (Or.inl rfl)
  | some g =>
    cases g with
    | freed => exact Or.inl rfl
    | pending => exact Or.inr (Or.inr ⟨rfl, rfl⟩)
    | already => exact Or.inr (Or.inl rfl)
    | inUse => exact Or.inr (Or.inl rfl)
    | markerClash j => exact Or.inr (Or.inl rfl)
    | overlapClash j => exact Or.inr (Or.inl rfl)

@[simp] theorem withdraw_live (x : Slot) : x.withdraw.live = x.live := rfl
@[simp] theorem withdraw_pending (x : Slot) : x.withdraw.pending = .withdrawal := rfl
@[simp] theorem withdraw_fade (x : Slot) : x.withdraw.fade = x.fade := rfl
@[simp] theorem withdraw_view (x : Slot) : x.withdraw.view = x.live := rfl

/-- A withdrawal puts no image live. -/
theorem applySection_live {x : Slot} {f : Option WithdrawFinding} {r : Record} (h : (applySection x f).live = some r) :
    x.live = some r := by
  rcases applySection_cases x f with hf | hx | ⟨_, hw⟩
  · rw [hf] at h; exact nomatch h
  · rwa [hx] at h
  · rwa [hw, withdraw_live] at h

/-- A withdrawal stages no image. -/
theorem applySection_pending {x : Slot} {f : Option WithdrawFinding} {r : Record}
    (h : (applySection x f).pending = .image r) : x.pending = .image r := by
  rcases applySection_cases x f with hf | hx | ⟨_, hw⟩
  · rw [hf] at h; exact nomatch h
  · rwa [hx] at h
  · rw [hw, withdraw_pending] at h; exact nomatch h

/-- A slot that a withdrawal leaves in the view is there by the image it had there, or by its live one, where the
withdrawal is pending (R33). -/
theorem applySection_view {x : Slot} {f : Option WithdrawFinding} {r : Record} (h : (applySection x f).view = some r) :
    x.view = some r ∨ f = some .pending ∧ x.live = some r := by
  rcases applySection_cases x f with hf | hx | ⟨hp, hw⟩
  · rw [hf] at h; exact nomatch h
  · exact Or.inl (hx ▸ h)
  · exact Or.inr ⟨hp, by rwa [hw, withdraw_view] at h⟩

theorem applySection_sound {x : Slot} (hx : x.sound) {f : Option WithdrawFinding}
    (hf : f = some .pending → x.Withdrawable) : (applySection x f).sound := by
  rcases applySection_cases x f with hfree | hsame | ⟨hp, hw⟩
  · rw [hfree]; exact freed_sound
  · rwa [hsame]
  · obtain ⟨⟨r, hl⟩, hfade⟩ := hf hp
    rw [hw]
    refine ⟨fun _ => by simp [hl], fun n hn => ?_, nofun⟩
    rw [withdraw_fade, hfade] at hn
    exact nomatch hn

/-! ### A fence -/

/-- What a fence can leave of a slot (R74 to R77): the slot as it was, where it holds no live image and none to publish;
a freed slot; its pending image published; its live image fading; or its live image judged again. -/
inductive FenceLeaves (x : Slot) : Slot → Prop
  | empty (hlive : x.live = none) (hnone : x.pendingImage = none) : FenceLeaves x x
  | freed : FenceLeaves x Slot.freed
  | published {y : Slot} {r : Record} (himage : x.pending = .image r) (hlive : y.live = some r)
      (hpending : y.pending = .none) (hfade : y.fade = x.fade) : FenceLeaves x y
  | fading {y : Slot} {r : Record} {n : Nat} (hnone : x.pendingImage = none) (hold : x.live = some r)
      (hlive : y.live = some r) (hpending : y.pending = .none) (hfade : y.fade = some n)
      (hlevel : n = fullFade ∨ x.fade = some (n + 1) ∧ 1 ≤ n) : FenceLeaves x y
  | judged {y : Slot} {r : Record} (hnone : x.pendingImage = none) (hold : x.live = some r) (hlive : y.live = some r)
      (hpending : y.pending = .none) (hfade : y.fade = none) : FenceLeaves x y

section
variable {x : Slot} (running : Bool) (test : Record → PositionTest)

theorem publication_leaves (p : Nat) {r : Record} (hp : x.pending = .image r) :
    FenceLeaves x (x.publication test p r).slot := by
  unfold Slot.publication
  simp only
  split
  · exact .published hp rfl rfl rfl
  · exact .published hp rfl rfl rfl
  · exact .freed

theorem withdrawn_leaves {r : Record} (hp : x.pending = .withdrawal) (hl : x.live = some r) :
    FenceLeaves x (x.withdrawn running test r).slot := by
  unfold Slot.withdrawn
  split
  · split
    · exact .fading (pendingImage_of_withdrawal hp) hl hl rfl rfl (Or.inl rfl)
    · exact .freed
  · exact .freed
  · exact .freed

theorem fadeStep_leaves {r : Record} {level : Nat} (hp : x.pending = .none) (hl : x.live = some r)
    (hf : x.fade = some level) : FenceLeaves x (x.fadeStep running test r level).slot := by
  have hstep : FenceLeaves x (if running && decide (1 < level) then SlotWork.kept { x with fade := some (level - 1) }
      else SlotWork.freed r false true).slot := by
    split
    · rename_i hrun
      have hlevel : 1 < level := by simp at hrun; exact hrun.2
      exact .fading (n := level - 1) (pendingImage_of_none hp) hl hl hp rfl
        (Or.inr ⟨by rw [hf, Nat.sub_add_cancel (by omega)], by omega⟩)
    · exact .freed
  unfold Slot.fadeStep
  split
  · exact .freed
  · exact hstep
  · exact hstep

theorem judge_leaves (p : Nat) {r : Record} (hp : x.pending = .none) (hl : x.live = some r) (hf : x.fade = none) :
    FenceLeaves x (x.judge test p r).slot := by
  unfold Slot.judge
  split
  · exact .judged (pendingImage_of_none hp) hl hl hp hf
  · exact .judged (pendingImage_of_none hp) hl hl hp hf
  · exact .freed

theorem fence_leaves (x : Slot) (p : Nat) : FenceLeaves x (x.fence running test p).slot := by
  unfold Slot.fence
  split
  · exact publication_leaves test p (by assumption)
  · exact withdrawn_leaves running test (by assumption) (by assumption)
  · exact .empty (by assumption) (pendingImage_of_withdrawal (by assumption))
  · exact .empty (by assumption) (pendingImage_of_none (by assumption))
  · split
    · exact fadeStep_leaves running test (by assumption) (by assumption) (by assumption)
    · exact judge_leaves test p (by assumption) (by assumption) (by assumption)

end

/-- A slot without a pending change is sound where it fades only with a live image, at a level of 1 to 16 (R26, R27). -/
theorem sound_of_pending_none {y : Slot} (hp : y.pending = .none)
    (hf : ∀ n, y.fade = some n → y.live.isSome ∧ 1 ≤ n ∧ n ≤ 16) : y.sound := by
  refine ⟨fun hw => ?_, fun n hn => ?_, fun r q _ hi => ?_⟩
  · rw [hp] at hw; exact nomatch hw
  · obtain ⟨hl, h1, h16⟩ := hf n hn
    exact ⟨hl, hp, h1, h16⟩
  · rw [hp] at hi; exact nomatch hi

section
variable {x y : Slot} (h : FenceLeaves x y)
include h

/-- A fence puts live only what was in the view (R35). -/
theorem FenceLeaves.view_of_live {r : Record} (hr : y.live = some r) : x.view = some r := by
  cases h with
  | empty hlive _ => rw [hlive] at hr; exact nomatch hr
  | freed => exact nomatch hr
  | published himage hlive _ _ => rw [view_of_image himage, ← hlive, hr]
  | fading hnone hold hlive _ _ _ => rw [view_of_pendingImage_none hnone, hold, ← hlive, hr]
  | judged hnone hold hlive _ _ => rw [view_of_pendingImage_none hnone, hold, ← hlive, hr]

/-- A fence leaves no pending image (R74). -/
theorem FenceLeaves.pendingImage_none : y.pendingImage = none := by
  cases h with
  | empty _ hnone => exact hnone
  | freed => rfl
  | published _ _ hpending _ => exact pendingImage_of_none hpending
  | fading _ _ _ hpending _ _ => exact pendingImage_of_none hpending
  | judged _ _ _ hpending _ => exact pendingImage_of_none hpending

/-- What is in the view after a fence was there before it (R33). -/
theorem FenceLeaves.view {r : Record} (hr : y.view = some r) : x.view = some r :=
  h.view_of_live (view_of_pendingImage_none h.pendingImage_none ▸ hr)

theorem FenceLeaves.sound (hx : x.sound) : y.sound := by
  obtain ⟨_, hfading, _⟩ := id hx
  cases h with
  | empty => exact hx
  | freed => exact freed_sound
  | published himage hlive hpending hfade =>
    refine sound_of_pending_none hpending fun n hn => ?_
    obtain ⟨_, hp, _⟩ := hfading n (hfade ▸ hn)
    rw [hp] at himage
    exact nomatch himage
  | @fading _ _ n _ _ hlive hpending hfade hlevel =>
    refine sound_of_pending_none hpending fun m hm => ?_
    obtain rfl : n = m := Option.some.inj (hfade.symm.trans hm)
    refine ⟨by rw [hlive]; rfl, ?_⟩
    rcases hlevel with rfl | ⟨hold, h1⟩
    · exact ⟨by decide, by decide⟩
    · obtain ⟨_, _, _, h16⟩ := hfading _ hold
      exact ⟨h1, by omega⟩
  | judged _ _ _ hpending hfade =>
    refine sound_of_pending_none hpending fun n hn => ?_
    rw [hfade] at hn
    exact nomatch hn

end

end Sys2Proof.Machine
end

section
/-! PROOFS. Every step keeps the laws of keys, markers and overlap, in the view and among the live images, and the shape
of the slots. -/

namespace Sys2Proof.Machine

/-! ### The laws, slot by slot -/

/-- Images held by number, none of which breaks a law with that of another slot (R34 to R36). -/
def Separate (f : Nat → Option Record) : Prop :=
  ∀ (i j : Nat) (r q : Record), i ≠ j → f i = some r → f j = some q → r.compatible q

/-- The laws of the table: the shape of its slots, and the laws of the view and of the live images (R26, R34 to R36). -/
structure CurveTable.Lawful (t : CurveTable) : Prop where
  sound : ∀ i, (t.slot i).sound
  views : Separate fun i => (t.slot i).view
  lives : Separate fun i => (t.slot i).live

/-- Images read by number are those of the slots the table has. -/
theorem separate_iff (t : CurveTable) {f : Slot → Option Record} (hfreed : f Slot.freed = none) :
    (∀ (i j : Nat) (x y : Slot) (r q : Record), i ≠ j → t.slots[i]? = some x → t.slots[j]? = some y →
      f x = some r → f y = some q → r.compatible q) ↔ Separate fun i => f (t.slot i) := by
  have hin : ∀ {i r}, f (t.slot i) = some r → t.slots[i]? = some (t.slot i) := fun h =>
    getElem?_of_slot_ne_freed fun hi => by rw [hi, hfreed] at h; exact nomatch h
  constructor
  · exact fun h i j r q hij hr hq => h i j _ _ r q hij (hin hr) (hin hq) hr hq
  · intro h i j x y r q hij hx hy hr hq
    rw [← slot_of_getElem? hx] at hr
    rw [← slot_of_getElem? hy] at hq
    exact h i j r q hij hr hq

theorem viewSound_iff (s : State) : s.viewSound ↔ s.table.Lawful := by
  unfold State.viewSound
  rw [forall_mem_slots_iff s.table freed_sound, separate_iff s.table (f := Slot.view) rfl,
    separate_iff s.table (f := Slot.live) rfl]
  exact ⟨fun ⟨sound, views, lives⟩ => ⟨sound, views, lives⟩, fun h => ⟨h.sound, h.views, h.lives⟩⟩

section
variable {f g k : Nat → Option Record}

/-- Dropping images keeps them separate. -/
theorem Separate.mono (h : Separate f) (hg : ∀ i r, g i = some r → f i = some r) : Separate g :=
  fun i j r q hij hr hq => h i j r q hij (hg i r hr) (hg j q hq)

/-- Images each from one of two separate families, where no image of the one breaks a law with one of the other. -/
theorem Separate.mix (hf : Separate f) (hg : Separate g)
    (hcross : ∀ (i j : Nat) (r q : Record), i ≠ j → g i = some r → f j = some q → r.compatible q ∧ q.compatible r)
    (hk : ∀ i r, k i = some r → f i = some r ∨ g i = some r) : Separate k := by
  intro i j r q hij hr hq
  rcases hk i r hr with hr | hr <;> rcases hk j q hq with hq | hq
  · exact hf i j r q hij hr hq
  · exact (hcross j i q r hij.symm hq hr).2
  · exact (hcross i j r q hij hr hq).1
  · exact hg i j r q hij hr hq

end

/-- A table with no image is lawful. -/
theorem lawful_of_freed {t : CurveTable} (h : ∀ i, t.slot i = Slot.freed) : t.Lawful where
  sound i := h i ▸ freed_sound
  views i j r q _ hr _ := by simp only [h] at hr; exact nomatch hr
  lives i j r q _ hr _ := by simp only [h] at hr; exact nomatch hr

/-- Slots with the same images and marks, and changed at most in their flags, stamps and status, stay lawful. -/
theorem CurveTable.Lawful.of_sameImages {t u : CurveTable} (h : t.Lawful)
    (hu : ∀ i, (u.slot i).live = (t.slot i).live ∧ (u.slot i).pending = (t.slot i).pending
      ∧ (u.slot i).fade = (t.slot i).fade) : u.Lawful := by
  have hview : ∀ i, (u.slot i).view = (t.slot i).view := fun i => by
    obtain ⟨hl, hp, _⟩ := hu i
    simp only [Slot.view, hl, hp]
  refine ⟨fun i => ?_, h.views.mono fun i r hr => by rwa [← hview], h.lives.mono fun i r hr => by rwa [← (hu i).1]⟩
  obtain ⟨hl, hp, hf⟩ := hu i
  have := h.sound i
  unfold Slot.sound at this ⊢
  rwa [hl, hp, hf]

/-- A slot of the table replaced by one with the same images and marks. -/
theorem CurveTable.Lawful.putSlot {t : CurveTable} (h : t.Lawful) {i : Nat} {x : Slot} (hl : x.live = (t.slot i).live)
    (hp : x.pending = (t.slot i).pending) (hf : x.fade = (t.slot i).fade) : (t.putSlot i x).Lawful :=
  h.of_sameImages fun j => by
    rw [slot_putSlot]
    split
    · rename_i hij
      exact hij.1 ▸ ⟨hl, hp, hf⟩
    · exact ⟨rfl, rfl, rfl⟩

/-! ### The checks -/

theorem meets_comm (a b c d : Nat) : meets a b c d = meets c d a b := by
  unfold meets
  rw [Bool.eq_iff_iff]
  simp only [Bool.and_eq_true, decide_eq_true_eq]
  omega

/-- A record that clashes in neither marker nor place with the view of a slot, and has another key, may stand beside it
(R34 to R36). -/
theorem compatible_of_noClash {o : Option Nat} {r q : Record} {j : Nat} {y : Slot} (hj : o ≠ some j)
    (hq : y.view = some q) (hkey : r.key ≠ q.key) (hmarker : ¬ otherHasMarker o r j y)
    (hoverlap : ¬ otherOverlaps o r j y) : r.compatible q ∧ q.compatible r := by
  have hm : ∀ m n, r.marker = some m → q.marker = some n → m.id ≠ n.id := fun m n hm hn he =>
    hmarker ⟨hj, q, m, n, hq, hm, hn, he⟩
  have ho : ∀ c d, r.body = .curve c → q.body = .curve d →
      meets c.e1 c.e2 q.e0 q.e3 = false ∧ meets r.e0 r.e3 d.e1 d.e2 = false := by
    intro c d hc hd
    simp only [← Bool.not_eq_true, ← not_or]
    exact fun hmeets => hoverlap ⟨hj, q, c, d, hq, hc, hd, hmeets⟩
  exact ⟨⟨hkey, hm, fun c d hc hd => (ho c d hc hd).1⟩,
    hkey.symm, fun m n hn hr => (hm n m hr hn).symm,
    fun d c hd hc => by rw [meets_comm]; exact (ho c d hc hd).2⟩

/-- The searches for a clash find none. -/
theorem noClash_of_searches {t : CurveTable} {o : Option Nat} {r : Record} (hm : t.lowestOther o r.sharesMarker = none)
    (ho : t.lowestOther o r.overlaps = none) (j : Nat) :
    ¬ otherHasMarker o r j (t.slot j) ∧ ¬ otherOverlaps o r j (t.slot j) := by
  rw [otherMarker_none, noSlot_iff fun _ ⟨_, _, _, _, hv, _⟩ => nomatch hv] at hm
  rw [otherOverlap_none, noSlot_iff fun _ ⟨_, _, _, _, hv, _⟩ => nomatch hv] at ho
  exact ⟨hm j, ho j⟩

/-! ### Withdrawals -/

section
variable {t u : CurveTable} (h : t.Lawful)
include h

/-- The live image of a slot has the key of the slot's view (R26). -/
theorem CurveTable.Lawful.key_of_live {i : Nat} {r q : Record} (hl : (t.slot i).live = some r)
    (hv : (t.slot i).view = some q) : r.key = q.key := by
  obtain ⟨_, _, hkeys⟩ := h.sound i
  cases hp : (t.slot i).pending with
  | none => rw [view_of_none hp, hl] at hv; rw [Option.some.inj hv]
  | withdrawal => rw [view_of_withdrawal hp, hl] at hv; rw [Option.some.inj hv]
  | image p => rw [view_of_image hp] at hv; exact Option.some.inj hv ▸ hkeys r p hl hp

/-- Slots with a live image are in the view by some record of the same key. -/
theorem CurveTable.Lawful.view_of_live {i : Nat} {r : Record} (hl : (t.slot i).live = some r) :
    ∃ q, (t.slot i).view = some q ∧ r.key = q.key := by
  cases hp : (t.slot i).pending with
  | none => exact ⟨r, by rw [view_of_none hp, hl], rfl⟩
  | withdrawal => exact ⟨r, by rw [view_of_withdrawal hp, hl], rfl⟩
  | image q => exact ⟨q, view_of_image hp, h.key_of_live hl (view_of_image hp)⟩

/-- A live image that a withdrawal finds to clash with no other view may stand in the view beside the others (R58). -/
theorem CurveTable.Lawful.compatible_of_noWithdrawClash {i j : Nat} {r q : Record} (hij : i ≠ j)
    (hl : (t.slot i).live = some r) (hc : t.withdrawClash i (t.slot i) = none) (hq : (t.slot j).view = some q) :
    r.compatible q ∧ q.compatible r := by
  obtain ⟨p, hp, hkey⟩ := h.view_of_live hl
  unfold CurveTable.withdrawClash at hc
  split at hc
  · rename_i hi hl'
    obtain rfl : r = _ := Option.some.inj (hl.symm.trans hl')
    split at hc
    · exact nomatch hc
    · rename_i hm
      obtain ⟨hmarker, hoverlap⟩ := noClash_of_searches hm (Option.map_eq_none_iff.1 hc) j
      exact compatible_of_noClash (fun hs => hij (Option.some.inj hs)) hq
        (hkey ▸ (h.views i j p q hij hp hq).1) hmarker hoverlap
  · rename_i hl'
    rw [hl] at hl'
    exact nomatch hl'
  · rename_i hi
    have hv : (t.slot i).view = some r := by rw [view_of_pendingImage_none hi, hl]
    exact ⟨h.views i j r q hij hv hq, h.views j i q r hij.symm hq hv⟩

variable {f : Nat → Option WithdrawFinding} (hu : ∀ i, u.slot i = applySection (t.slot i) (f i))
include hu

/-- Withdrawals of slots that may take them leave a lawful table where the view stays lawful: they put no image
live. -/
theorem CurveTable.Lawful.withdrawn (hf : ∀ i, f i = some .pending → (t.slot i).Withdrawable)
    (hviews : Separate fun i => (u.slot i).view) : u.Lawful where
  sound i := hu i ▸ applySection_sound (h.sound i) (hf i)
  views := hviews
  lives := h.lives.mono fun i _ hr => applySection_live (hu i ▸ hr)

/-- Withdrawals found to clash with no other view keep the laws: two live images that come back into the view are
lawful as live images, and each was found so beside the views that stay (R58, R60). -/
theorem CurveTable.Lawful.withdrawn_noClash
    (hf : ∀ i, f i = some .pending → (t.slot i).Withdrawable ∧ t.withdrawClash i (t.slot i) = none) : u.Lawful := by
  refine h.withdrawn hu (fun i hi => (hf i hi).1)
    (h.views.mix (g := fun i => if f i = some .pending then (t.slot i).live else none)
      (h.lives.mono fun i _ hr => (Option.ite_none_right_eq_some.1 hr).2) (fun i j r q hij hr hq => ?_)
      fun i r hr => ?_)
  · obtain ⟨hp, hl⟩ := Option.ite_none_right_eq_some.1 hr
    exact h.compatible_of_noWithdrawClash hij hl (hf i hp).2 hq
  · rcases applySection_view (hu i ▸ hr) with hv | ⟨hp, hl⟩
    · exact Or.inl hv
    · exact Or.inr (by rw [if_pos hp, hl])

end

/-- A slot cleared is in the view by its live image alone (R61). -/
theorem live_of_view_cleared {x : Slot} (hx : x.sound) {r : Record}
    (h : (applySection x x.clearFinding).view = some r) : x.live = some r := by
  rcases applySection_view h with hv | ⟨_, hl⟩
  · cases hp : x.pending with
    | none => rwa [view_of_none hp] at hv
    | withdrawal => rwa [view_of_withdrawal hp] at hv
    | image q =>
      obtain ⟨_, hfading, _⟩ := hx
      unfold Slot.clearFinding at h
      have hfree := ne_free_of_view hv
      have hfade : x.state ≠ .fading := fun hs => by
        obtain ⟨n, hn⟩ := fade_of_fading hs
        obtain ⟨_, hnone, _⟩ := hfading n hn
        exact nomatch hnone.symm.trans hp
      rw [if_neg hfree, if_neg (by simp [hp, hfade])] at h
      split at h
      · exact nomatch h
      · exact h
  · exact hl

theorem CurveTable.Lawful.applyFinding {t : CurveTable} (h : t.Lawful) {key i : Nat} (force : Nat)
    (hi : t.slotOfKey key = some i) : (t.applyFinding i (t.findWithdraw i force)).Lawful := by
  obtain ⟨hin, _, hv, _⟩ := slotOfKey_slot hi
  refine h.withdrawn_noClash (f := fun j => if i = j then some (t.findWithdraw i force) else none) (fun j => ?_)
    fun j hj => ?_
  · show (t.putSlot i _).slot j = _
    by_cases hij : i = j
    · subst hij
      rw [slot_putSlot_same _ hin, if_pos rfl]
      rfl
    · rw [slot_putSlot_ne t _ hij, if_neg hij]
      rfl
  · obtain ⟨rfl, hp⟩ := Option.ite_none_right_eq_some.1 hj
    exact judgeWithdraw_pending hv (Option.some.inj hp)

/-! ### CLOSER -/

/-- A record that may be staged in slot i: its key is that of the slot's view, it may stand beside every other view, and
the slot does not fade (R29, R34 to R36). -/
structure CurveTable.Admits (t : CurveTable) (i : Nat) (r : Record) : Prop where
  key : ∀ q, (t.slot i).view = some q → q.key = r.key
  others : ∀ j q, i ≠ j → (t.slot j).view = some q → r.compatible q ∧ q.compatible r
  fade : (t.slot i).fade = none

theorem slotOfKey_eq_none {t : CurveTable} {key : Nat} (h : t.slotOfKey key = none) {j : Nat} {q : Record}
    (hq : (t.slot j).view = some q) : q.key ≠ key := by
  rw [slotOfKey_none, noSlot_iff fun _ ⟨_, hv, _⟩ => nomatch hv] at h
  exact fun hk => h j ⟨q, hq, hk⟩

/-- A sound slot that is not FADING does not fade. -/
theorem fade_of_ne_fading {x : Slot} (hx : x.sound) (h : x.state ≠ .fading) : x.fade = none := by
  obtain ⟨_, hfading, _⟩ := hx
  cases hf : x.fade with
  | none => rfl
  | some n =>
    obtain ⟨r, hl⟩ := Option.isSome_iff_exists.1 (hfading n hf).1
    exact absurd (by simp [Slot.state, hl, hf]) h

/-- What the key check of CLOSER leaves: a FREE slot and a key that no view carries, or the slot that carries the key,
which is not FADING (R52). -/
theorem checkKey_none {a : Assembly} {t : CurveTable} {i : Nat} (hk : a.checkKey t = none) (ht : a.target t = some i) :
    a.amendedSlot t = none ∧ (t.slot i).state = .free ∧ t.slotOfKey a.key = none
      ∨ a.amendedSlot t = some i ∧ (t.slot i).state ≠ .fading ∧ t.slotOfKey a.key = some i := by
  unfold Assembly.checkKey at hk
  unfold Assembly.target at ht
  unfold Assembly.amendedSlot
  cases hint : a.intent with
  | new =>
    rw [hint] at hk ht
    refine Or.inl ⟨rfl, (lowestFree_slot ht).2, ?_⟩
    cases hkey : t.slotOfKey a.key with
    | none => rfl
    | some j => rw [hkey] at hk; exact nomatch hk
  | amend =>
    simp only [hint] at hk ht
    refine Or.inr ⟨ht, fun hf => ?_, ht⟩
    simp only [ht, Assembly.checkAmended, hf] at hk
    split at hk <;> simp at hk

theorem CurveTable.Lawful.admits {s : State} (h : s.table.Lawful) {a : Assembly} {i : Nat}
    (hc : a.closeRefusal s = none) (ht : a.target s.table = some i) : s.table.Admits i a.record := by
  obtain ⟨_, _, hkey, hmarker, _, hoverlap, _, _⟩ := closeRefusal_none hc
  have hclash := noClash_of_searches (Option.map_eq_none_iff.1 hmarker) (Option.map_eq_none_iff.1 hoverlap)
  rcases checkKey_none hkey ht with ⟨ho, hfree, hnone⟩ | ⟨ho, hfading, hsome⟩
  · have hkeys : ∀ j q, (s.table.slot j).view = some q → a.key ≠ q.key := fun j q hq =>
      (slotOfKey_eq_none hnone hq).symm
    refine ⟨fun q hq => absurd hfree (ne_free_of_view hq), fun j q _ hq => ?_,
      fade_of_ne_fading (h.sound i) (by rw [hfree]; decide)⟩
    exact compatible_of_noClash (by rw [ho]; nofun) hq (hkeys j q hq) (hclash j).1 (hclash j).2
  · obtain ⟨_, p, hp, hpkey⟩ := slotOfKey_slot hsome
    refine ⟨fun q hq => ?_, fun j q hij hq => ?_, fade_of_ne_fading (h.sound i) hfading⟩
    · rw [hp] at hq
      exact Option.some.inj hq ▸ hpkey
    · have hkeys : p.key ≠ q.key := (h.views i j p q hij hp hq).1
      exact compatible_of_noClash (by rw [ho]; exact fun he => hij (Option.some.inj he)) hq
        (show a.key ≠ q.key from hpkey ▸ hkeys) (hclash j).1 (hclash j).2

/-- A record that a slot admits, staged there, keeps the laws (R55, R56). -/
theorem CurveTable.Lawful.stage {t u : CurveTable} (h : t.Lawful) {i : Nat} {r : Record} (ha : t.Admits i r)
    (hu : ∀ j, u.slot j = if i = j then (t.slot j).stage r else t.slot j) : u.Lawful := by
  have hlive : ∀ j, (u.slot j).live = (t.slot j).live := fun j => by rw [hu]; split <;> rfl
  refine ⟨fun j => ?_, ?_, h.lives.mono fun j q hq => hlive j ▸ hq⟩
  · rw [hu]
    split
    · rename_i hij
      subst hij
      refine ⟨nofun, fun n hn => ?_, fun q p hq hp => ?_⟩
      · exact nomatch ha.fade.symm.trans hn
      · obtain rfl := PendingChange.image.inj hp
        obtain ⟨v, hv, hk⟩ := h.view_of_live hq
        exact hk.trans (ha.key v hv)
    · exact h.sound j
  · refine h.views.mix (g := fun j => if i = j then some r else none) (fun j k q p hjk hq hp => ?_)
      (fun j k q p hjk hq hp => ?_) fun j q hq => ?_
    · obtain ⟨hij, _⟩ := Option.ite_none_right_eq_some.1 hq
      obtain ⟨hik, _⟩ := Option.ite_none_right_eq_some.1 hp
      exact absurd (hij.symm.trans hik) hjk
    · obtain ⟨rfl, hr⟩ := Option.ite_none_right_eq_some.1 hq
      exact Option.some.inj hr ▸ ha.others k p hjk hp
    · simp only [hu] at hq
      split at hq
      · exact Or.inr (by rw [if_pos (by assumption)]; exact hq)
      · exact Or.inl hq

/-! ### Every change of the table -/

/-- A fence puts the view live: what is live after it was in the view before it, and so is what is in the view (R35). -/
theorem CurveTable.Lawful.fence {s : State} (h : s.table.Lawful) :
    ((s.table.afterWork s.slotWorks).judgeHorizon s.position.travel s.position.snapshot.lead).Lawful := by
  have hleaves := fun j => fence_leaves (decide (s.mode.mode = .running)) s.positionTest (s.table.slot j)
    s.position.snapshot.lead
  refine ⟨fun j => ?_, h.views.mono fun j r hr => ?_, h.views.mono fun j r hr => ?_⟩
  · rw [slot_fence]; exact (hleaves j).sound (h.sound j)
  · rw [slot_fence] at hr; exact (hleaves j).view hr
  · rw [slot_fence] at hr; exact (hleaves j).view_of_live hr

/-- Every change of the Curve Table keeps its laws. -/
theorem keepsTable_lawful : KeepsTable CurveTable.Lawful where
  stop t _ := lawful_of_freed (slot_stopped t)
  openr _ _ _ h _ _ := h.of_sameImages fun _ => ⟨rfl, rfl, rfl⟩
  write _ _ _ _ h _ _ := h.of_sameImages fun _ => ⟨rfl, rfl, rfl⟩
  closer u a i h _ hc ht := h.stage (h.admits hc ht) fun j => by
    show (u.table.putSlot i _).slot j = _
    split
    · rename_i hij
      subst hij
      exact slot_putSlot_same _ (target_slot ht)
    · exact slot_putSlot_ne _ _ (by assumption)
  abandr _ h := h.of_sameImages fun _ => ⟨rfl, rfl, rfl⟩
  wdraw _ _ _ force h hi := h.applyFinding force hi
  wdsect t f h := h.withdrawn_noClash (slot_sections t f) fun _ hi => sectionFinding_pending hi
  clrtab t h := h.withdrawn (slot_cleared t) (fun _ hi => clearFinding_pending hi)
    (h.lives.mono fun i _ hr => live_of_view_cleared (h.sound i) (slot_cleared t i ▸ hr))
  overw _ _ _ h _ := h.putSlot rfl rfl rfl
  tsum _ h := h.of_sameImages fun _ => ⟨rfl, rfl, rfl⟩
  cover _ _ h := h.of_sameImages fun _ => ⟨rfl, rfl, rfl⟩
  horizon _ _ h := h.of_sameImages fun _ => ⟨rfl, rfl, rfl⟩
  confirm _ _ _ _ h _ := h.putSlot rfl rfl rfl
  fence _ h := h.fence
  empty := lawful_of_freed slot_empty

/-- Settles O9: the laws are laws of the table alone, which every change of the table keeps. -/
theorem viewLawsHold : Obligations.ViewLawsHold := by
  intro s t hs hstep
  rw [viewSound_iff] at hs ⊢
  exact step_keeps_table keepsTable_lawful s t hs hstep

end Sys2Proof.Machine
end

section
/-! PROOFS. Every step keeps every record of the table and the open assembly sound. -/

namespace Sys2Proof.Machine

/-! ### OPENR -/

section
variable {f : OpenFields}

theorem commonOk_iff : f.commonOk = true ↔ f.key ≠ 0 ∧ f.sectionTag ≤ 4095 ∧ f.angleOrCap ≤ 800
    ∧ (f.markerPresent = true → 1 ≤ f.markerId ∧ f.markerId ≤ 16777215) := by
  simp only [OpenFields.commonOk, Bool.and_eq_true, Bool.or_eq_true, decide_eq_true_eq, Bool.not_eq_true', and_assoc]
  cases f.markerPresent <;> simp

theorem curveOk_iff : f.curveOk = true ↔ f.e0 ≤ f.e1 ∧ f.e1 ≤ f.e2 ∧ f.e2 ≤ f.e3 ∧ f.e0 < f.e3
    ∧ (f.bandPresent = true → f.vZero < f.vFull) ∧ (f.nIn ≠ 1 ∧ f.nIn ≤ 16) ∧ (f.nOut ≠ 1 ∧ f.nOut ≤ 16) := by
  simp only [OpenFields.curveOk, Bool.and_eq_true, Bool.or_eq_true, decide_eq_true_eq, Bool.not_eq_true', and_assoc]
  cases f.bandPresent <;> simp

/-- The marker of an OPENR that passes R45 is one that a record may carry (R25). -/
theorem openMarker_sound (h : f.commonOk = true) {m : Marker} (hm : f.marker = some m) : m.sound := by
  obtain ⟨_, _, _, hid⟩ := commonOk_iff.1 h
  obtain ⟨hp, hm⟩ := Option.ite_none_right_eq_some.1 hm
  obtain rfl := Option.some.inj hm
  exact ⟨(hid hp).1, (hid hp).2, Nat.le_of_lt_succ f.markerPosition.isLt⟩

/-- The speed band of an OPENR that passes R45 is one that a record may carry (R23). -/
theorem openBand_sound (h : f.curveOk = true) {b : Band} (hb : f.band = some b) : b.sound := by
  obtain ⟨_, _, _, _, hband, _⟩ := curveOk_iff.1 h
  obtain ⟨hp, hb⟩ := Option.ite_none_right_eq_some.1 hb
  obtain rfl := Option.some.inj hb
  exact ⟨hband hp, Nat.le_of_lt_succ f.vFull.isLt⟩

theorem profileCountFits_of_ne {n : Nat} (h : n ≠ 1 ∧ n ≤ 16) : profileCountFits n := by
  unfold profileCountFits
  omega

/-- The body that an OPENR gives its assembly: a LIMIT with its cap, or a CURVE that passes R45. -/
theorem draft_cases {body : BodyDraft} (h : f.draft = some body) :
    (f.e0 < f.e3 ∧ body = .limit f.angleOrCap)
      ∨ f.curveOk = true ∧ ∃ hand, body = .curve
        { e1 := f.e1.toNat, e2 := f.e2.toNat, hand := hand, angle := f.angleOrCap, band := f.band, nIn := f.nIn,
          nOut := f.nOut } := by
  unfold OpenFields.draft at h
  split at h
  · obtain ⟨hok, hb⟩ := Option.ite_none_right_eq_some.1 h
    exact Or.inr ⟨hok, _, (Option.some.inj hb).symm⟩
  · exact nomatch h
  · obtain ⟨hok, hb⟩ := Option.ite_none_right_eq_some.1 h
    simp only [OpenFields.limitOk, Bool.and_eq_true, decide_eq_true_eq] at hok
    exact Or.inl ⟨hok.1.1, (Option.some.inj hb).symm⟩
  · exact nomatch h

/-- The assembly that an OPENR opens meets the conditions of an assembly (R45). -/
theorem openAssembly_sound {a : Assembly} (h : f.assembly = some a) : a.sound := by
  unfold OpenFields.assembly at h
  split at h
  · rename_i intent body hdraft
    obtain ⟨hok, ha⟩ := Option.ite_none_right_eq_some.1 h
    obtain rfl := Option.some.inj ha
    obtain ⟨hkey, htag, hangle, _⟩ := commonOk_iff.1 hok
    have hkey1 : 1 ≤ f.key.toNat := Nat.pos_of_ne_zero fun h0 => hkey (BitVec.eq_of_toNat_eq h0)
    have hextent : f.e0 < f.e3 := by
      rcases draft_cases hdraft with ⟨hext, _⟩ | ⟨hc, _⟩
      · exact hext
      · obtain ⟨_, _, _, hext, _⟩ := curveOk_iff.1 hc
        exact hext
    refine ⟨⟨hkey1, Nat.le_of_lt_succ f.key.isLt⟩, htag, hextent, Nat.le_of_lt_succ f.e3.isLt,
      fun m hm => openMarker_sound hok hm, fun cap hcap => ?_, fun c hcurve => ?_, Nat.le_refl 0, Nat.zero_le _, nofun⟩
    · rcases draft_cases hdraft with ⟨_, rfl⟩ | ⟨_, _, rfl⟩
      · exact BodyDraft.limit.inj hcap ▸ hangle
      · exact nomatch hcap
    · rcases draft_cases hdraft with ⟨_, rfl⟩ | ⟨hc, _, rfl⟩
      · exact nomatch hcurve
      · obtain rfl := BodyDraft.curve.inj hcurve
        obtain ⟨h01, h12, h23, _, _, hin, hout⟩ := curveOk_iff.1 hc
        exact ⟨h01, h12, h23, hangle, fun b hb => openBand_sound hc hb, profileCountFits_of_ne hin,
          profileCountFits_of_ne hout⟩
  · exact nomatch h
  · exact nomatch h

end

/-! ### PUTP and CONTP -/

/-- A write takes only values of two bytes, and keeps what it does not write over (R47). -/
theorem mem_write_values {a : Assembly} {place v : Nat} {values : List Word} (h : v ∈ (a.write place values).values) :
    v ∈ a.values ∨ v ≤ 65535 := by
  simp only [Assembly.write, List.mem_append] at h
  rcases h with (h | h) | h
  · exact Or.inl (List.mem_of_mem_take h)
  · obtain ⟨w, _, rfl⟩ := List.mem_map.1 (List.mem_of_mem_take h)
    exact Or.inr (Nat.le_of_lt_succ w.isLt)
  · exact Or.inl (List.mem_of_mem_drop h)

/-- A write from a place within what is written keeps an assembly sound (R47). -/
theorem write_sound {a : Assembly} (h : a.sound) {place : Nat} (hplace : place ≤ a.values.length) (values : List Word) :
    (a.write place values).sound := by
  obtain ⟨hkey, htag, hextent, htop, hmarker, hlimit, hcurve, _, hlen, hvalues⟩ := h
  have hwritten := write_length a place values hplace
  have haccepted := accepted_length a place values
  refine ⟨hkey, htag, hextent, htop, hmarker, hlimit, hcurve, ?_, ?_, fun v hv => ?_⟩
  · show place + (a.accepted place values).length ≤ _
    omega
  · show _ ≤ a.total
    omega
  · exact (mem_write_values hv).elim (hvalues v) id

/-! ### CLOSER -/

theorem nIn_of_curve {a : Assembly} {c : CurveDraft} (h : a.body = .curve c) : a.nIn = c.nIn := by
  simp [Assembly.nIn, h]

theorem nOut_of_curve {a : Assembly} {c : CurveDraft} (h : a.body = .curve c) : a.nOut = c.nOut := by
  simp [Assembly.nOut, h]

/-- The profiles of a complete assembly have the declared counts (R51). -/
theorem profile_lengths {a : Assembly} (h : a.complete) :
    a.entryProfile.length = a.nIn ∧ a.exitProfile.length = a.nOut := by
  unfold Assembly.complete Assembly.total at h
  unfold Assembly.entryProfile Assembly.exitProfile
  simp only [List.length_take, List.length_drop]
  omega

/-- The record of a complete assembly whose profiles fit is sound (R21, R23 to R25). -/
theorem record_sound {a : Assembly} (h : a.sound) (hcomplete : a.complete) (hfit : a.profilesFit) : a.record.sound := by
  obtain ⟨hkey, htag, hextent, htop, hmarker, hlimit, hcurve, _⟩ := h
  obtain ⟨hentry, hexit⟩ := profile_lengths hcomplete
  refine ⟨hkey, htag, hextent, htop, hmarker, fun cap hcap => ?_, fun c hc => ?_⟩
  · cases hbody : a.body with
    | limit n =>
      simp only [Assembly.record, hbody, Body.limit.injEq] at hcap
      exact hcap ▸ hlimit n hbody
    | curve d => simp [Assembly.record, hbody] at hcap
  · cases hbody : a.body with
    | limit n => simp [Assembly.record, hbody] at hc
    | curve d =>
      simp only [Assembly.record, hbody, Body.curve.injEq] at hc
      obtain ⟨h01, h12, h23, hangle, hband, hin, hout⟩ := hcurve d hbody
      rw [← nIn_of_curve hbody, ← hentry] at hin
      rw [← nOut_of_curve hbody, ← hexit] at hout
      subst hc
      exact ⟨h01, h12, h23, hangle, hband, hin, hout, hfit.1, hfit.2⟩

theorem record_sound_of_closer {a : Assembly} {s : State} (h : a.sound) (hc : a.closeRefusal s = none) :
    a.record.sound := by
  obtain ⟨hcomplete, hprofiles, _⟩ := closeRefusal_none hc
  exact record_sound h ((checkComplete_none a).1 hcomplete) ((checkProfiles_none a).1 hprofiles)

/-! ### The images of a slot -/

/-- The images of a slot are sound (R21, R23 to R25). -/
structure Slot.ImagesSound (x : Slot) : Prop where
  live : ∀ r, x.live = some r → r.sound
  pending : ∀ r, x.pending = .image r → r.sound

/-- The images of every slot and the open assembly are sound (R44). -/
structure CurveTable.RecordsSound (t : CurveTable) : Prop where
  slots : ∀ i, (t.slot i).ImagesSound
  assembly : ∀ a, t.assembly = some a → a.sound

theorem freed_imagesSound : Slot.freed.ImagesSound := ⟨nofun, nofun⟩

theorem recordsSound_iff (s : State) : s.recordsSound ↔ s.table.RecordsSound := by
  unfold State.recordsSound
  rw [forall_mem_slots_iff s.table
    (P := fun x => (∀ r, x.live = some r → r.sound) ∧ ∀ r, x.pending = .image r → r.sound) ⟨nofun, nofun⟩]
  exact ⟨fun ⟨slots, assembly⟩ => ⟨fun i => ⟨(slots i).1, (slots i).2⟩, assembly⟩,
    fun h => ⟨fun i => ⟨(h.slots i).live, (h.slots i).pending⟩, h.assembly⟩⟩

section
variable {x : Slot} (h : x.ImagesSound)
include h

theorem Slot.ImagesSound.view {r : Record} (hr : x.view = some r) : r.sound := by
  cases hp : x.pending with
  | none => exact h.live r (view_of_none hp ▸ hr)
  | withdrawal => exact h.live r (view_of_withdrawal hp ▸ hr)
  | image q => rw [view_of_image hp] at hr; exact Option.some.inj hr ▸ h.pending q hp

theorem Slot.ImagesSound.applySection (f : Option WithdrawFinding) : (applySection x f).ImagesSound :=
  ⟨fun r hr => h.live r (applySection_live hr), fun r hr => h.pending r (applySection_pending hr)⟩

/-- What is live after a fence was in the view before it, and nothing is pending. -/
theorem Slot.ImagesSound.fence {y : Slot} (hy : FenceLeaves x y) : y.ImagesSound :=
  ⟨fun _ hr => h.view (hy.view_of_live hr), fun r hr => by
    have hnone := hy.pendingImage_none
    simp [Slot.pendingImage, hr] at hnone⟩

theorem Slot.ImagesSound.stage {r : Record} (hr : r.sound) : (x.stage r).ImagesSound :=
  ⟨h.live, fun _ hq => PendingChange.image.inj hq ▸ hr⟩

end

/-! ### Every change of the table -/

section
variable {t : CurveTable} (h : t.RecordsSound)
include h

/-- A slot replaced by one with sound images. -/
theorem CurveTable.RecordsSound.slots_putSlot {i : Nat} {x : Slot} (hx : x.ImagesSound) (j : Nat) :
    ((t.putSlot i x).slot j).ImagesSound := by
  rw [slot_putSlot]
  split
  · exact hx
  · exact h.slots j

theorem CurveTable.RecordsSound.putSlot {i : Nat} {x : Slot} (hx : x.ImagesSound) : (t.putSlot i x).RecordsSound :=
  ⟨h.slots_putSlot hx, h.assembly⟩

/-- The assembly replaced by a sound one. -/
theorem CurveTable.RecordsSound.setAssembly {a : Assembly} (ha : a.sound) :
    ({ t with assembly := some a } : CurveTable).RecordsSound :=
  ⟨h.slots, fun _ hb => Option.some.inj hb ▸ ha⟩

end

/-- Every change of the Curve Table keeps its records and its assembly sound. -/
theorem keepsTable_recordsSound : KeepsTable CurveTable.RecordsSound where
  stop t _ := ⟨fun i => slot_stopped t i ▸ freed_imagesSound, nofun⟩
  openr _ _ _ h _ ha := h.setAssembly (openAssembly_sound ha)
  write t a place vs h ha hplace := by
    have hsound := h.assembly a ha
    obtain ⟨_, _, _, _, _, _, _, hpos, _⟩ := id hsound
    refine h.setAssembly (write_sound hsound ?_ vs)
    rcases hplace with rfl | rfl
    · exact Nat.zero_le _
    · exact hpos
  closer _ a i h ha hc _ :=
    ⟨h.slots_putSlot ((h.slots i).stage (record_sound_of_closer (h.assembly a ha) hc)), nofun⟩
  abandr _ h := ⟨h.slots, nofun⟩
  wdraw _ _ i _ h _ := ⟨h.slots_putSlot ((h.slots i).applySection (some _)), h.assembly⟩
  wdsect t f h := ⟨fun i => slot_sections t f i ▸ (h.slots i).applySection _, h.assembly⟩
  clrtab t h := ⟨fun i => slot_cleared t i ▸ (h.slots i).applySection _, nofun⟩
  overw _ i _ h _ := h.putSlot ⟨(h.slots i).live, (h.slots i).pending⟩
  tsum _ h := ⟨h.slots, h.assembly⟩
  cover _ _ h := ⟨h.slots, h.assembly⟩
  horizon _ _ h := ⟨h.slots, h.assembly⟩
  confirm _ _ i _ h _ := h.putSlot ⟨(h.slots i).live, (h.slots i).pending⟩
  fence u h := ⟨fun i => slot_fence u i ▸ (h.slots i).fence (fence_leaves _ _ _ _), h.assembly⟩
  empty := ⟨fun i => slot_empty i ▸ freed_imagesSound, nofun⟩

/-- Settles O10: soundness of the records is a law of the table alone, which every change of the table keeps. -/
theorem recordsStaySound : Obligations.RecordsStaySound := by
  intro s t hs hstep
  rw [recordsSound_iff] at hs ⊢
  exact step_keeps_table keepsTable_recordsSound s t hs hstep

end Sys2Proof.Machine
end

section
/-! PROOFS. Every step keeps what the modes promise: of CONFIG, of the other modes, and of the period. -/

namespace Sys2Proof.Machine

/-! ### The rows that stand in one mode alone -/

/-- A slot that holds anything stands in no table of CONFIG (R27). -/
theorem ne_config_of_slot {u : State} (h : u.modeSound) {i : Nat} (hi : u.table.slot i ≠ Slot.freed) :
    u.mode.mode ≠ .config := fun hc =>
  hi ((h.1 hc).1 _ (List.mem_of_getElem? (getElem?_of_slot_ne_freed hi)))

theorem ne_config_of_running {u : State} (h : u.modeSound) (hr : u.timer.running = true) : u.mode.mode ≠ .config := by
  intro hc
  obtain ⟨_, _, _, _, hstopped, _⟩ := h.1 hc
  exact nomatch hstopped.symm.trans hr

theorem ne_config_of_pass {u : State} (h : u.modeSound) {k : Nat} (hp : u.poll.pass = some k) :
    u.mode.mode ≠ .config := by
  intro hc
  obtain ⟨_, _, _, _, _, _, hnopass, _⟩ := h.1 hc
  exact nomatch hnopass.symm.trans hp

theorem ne_config_of_waiting {u : State} (h : u.modeSound) {k : Nat} (hk : u.poll.manual = .waiting k) :
    u.mode.mode ≠ .config := by
  intro hc
  obtain ⟨_, _, _, _, _, _, _, hnorequest⟩ := h.1 hc
  exact hnorequest k hk

/-! ### The changes that keep the promise -/

/-- Outside CONFIG nothing is promised of the table, the pass and the manual slot. -/
theorem modeSound_of_cycling {u v : State} (h : u.modeSound) (hm : u.mode.mode ≠ .config)
    (hmode : v.mode.mode = u.mode.mode) (htimer : v.timer = u.timer)
    (hcomp : v.demand.composition = u.demand.composition) : v.modeSound := by
  obtain ⟨_, hcycling, hperiod⟩ := h
  unfold State.modeSound
  rw [hmode, htimer, hcomp]
  exact ⟨fun hc => absurd hc hm, hcycling, hperiod⟩

section
variable {u : State} (h : u.modeSound)
include h

theorem modeSound_setTable (hm : u.mode.mode ≠ .config) (x : CurveTable) : (u.setTable x).modeSound :=
  modeSound_of_cycling h hm rfl rfl rfl

theorem modeSound_setPoll (hm : u.mode.mode ≠ .config) (x : PollEngine) : (u.setPoll x).modeSound :=
  modeSound_of_cycling h hm rfl rfl rfl

/-- A Poll Engine with no pass begun and no request made (R142). -/
theorem modeSound_setPoll_idle {x : PollEngine} (hpass : u.poll.pass = none → x.pass = none)
    (hmanual : ∀ k, x.manual = .waiting k → u.poll.manual = .waiting k) : (u.setPoll x).modeSound := by
  obtain ⟨hconfig, hrest⟩ := h
  refine ⟨fun hc => ?_, hrest⟩
  obtain ⟨hslots, hpool, hassembly, hcoverage, hstopped, hcycle, hnopass, hnorequest⟩ := hconfig hc
  exact ⟨hslots, hpool, hassembly, hcoverage, hstopped, hcycle, hpass hnopass, fun k hk => hnorequest k (hmanual k hk)⟩

/-- A Demand Unit that holds a composition where one was held. -/
theorem modeSound_setDemand {x : DemandUnit} (hx : u.demand.composition.isSome → x.composition.isSome) :
    (u.setDemand x).modeSound := by
  obtain ⟨hconfig, hcycling, hperiod⟩ := h
  refine ⟨hconfig, fun hm => ?_, hperiod⟩
  obtain ⟨hcomp, hrunning, hlength⟩ := hcycling hm
  exact ⟨hx hcomp, hrunning, hlength⟩

/-- The same mode, with other distances. -/
theorem modeSound_setMode_same {x : ModeControl} (hx : x.mode = u.mode.mode) : (u.setMode x).modeSound := by
  obtain ⟨hconfig, hcycling, hperiod⟩ := h
  exact ⟨fun hc => hconfig (hx.symm.trans hc), fun hm => hcycling fun hc => hm (hx.trans hc), hperiod⟩

/-- A mode other than CONFIG entered from another (R178 to R181). -/
theorem modeSound_setMode (hm : u.mode.mode ≠ .config) {x : ModeControl} (hx : x.mode ≠ .config) :
    (u.setMode x).modeSound := by
  obtain ⟨_, hcycling, hperiod⟩ := h
  exact ⟨fun hc => absurd hc hx, fun _ => hcycling hm, hperiod⟩

/-! ### The rows -/

/-- START with a composition held: the timer runs, with the period in force for its first cycle (R68, R177). -/
theorem startCycling_modeSound (hc : u.demand.composition.isSome) : u.startCycling.modeSound := by
  obtain ⟨_, _, hperiod⟩ := h
  exact ⟨nofun, fun _ => ⟨hc, rfl, u.timer.period, rfl, hperiod⟩, hperiod⟩

/-- STOP empties the table, stops the timer, and ends the pass and a WAITING request (R142, R182). -/
theorem stopCycling_modeSound : u.stopCycling.modeSound := by
  obtain ⟨_, _, hperiod⟩ := h
  refine ⟨fun _ => ⟨fun x hx => List.eq_of_mem_replicate hx, rfl, rfl, rfl, rfl, rfl, rfl, fun k hk => ?_⟩,
    fun hm => absurd rfl hm, hperiod⟩
  change u.poll.stopped.manual = .waiting k at hk
  unfold PollEngine.stopped at hk
  cases hmanual : u.poll.manual <;> simp [hmanual] at hk

/-- A software reset empties the table and stops the timer too, and keeps the period (R41, R72, R183). -/
theorem softReset_modeSound : u.softReset.modeSound := by
  obtain ⟨_, _, hperiod⟩ := h
  exact ⟨fun _ => ⟨fun x hx => eq_freed_of_mem_reset hx, rfl, rfl, rfl, rfl, rfl, rfl, nofun⟩,
    fun hm => absurd rfl hm, hperiod⟩

/-- A read clears a flag only of a slot that holds an image, and so of none in CONFIG. -/
theorem readSlot_modeSound (i : Nat) (part : ReadPart) : (u.readSlot i part).state.modeSound := by
  unfold State.readSlot
  split
  · exact h
  · rename_i r hr
    exact modeSound_setTable h (ne_config_of_slot h fun hf => by rw [hf] at hr; exact nomatch hr) _

theorem setcyc_modeSound {period : Nat} (horizon : Nat) (hp : 10 ≤ period ∧ period ≤ 40) :
    ((u.setTimer { u.timer with period := period }).setTable { u.table with horizonSetting := horizon }).modeSound := by
  obtain ⟨hconfig, hcycling, _⟩ := h
  exact ⟨hconfig, hcycling, hp⟩

/-- SETCOMP leaves a composition, and no WAITING request (R88, R89). -/
theorem compose_modeSound (c : Composition) : (u.compose c).modeSound := by
  have hdemand := modeSound_setDemand h
    (x := { u.demand with composition := some c, cars := List.replicate carIndices CarOutput.clear }) fun _ => rfl
  refine modeSound_setPoll_idle hdemand id fun k hk => ?_
  unfold PollEngine.recomposed at hk
  cases hmanual : u.poll.manual <;> simp [hmanual] at hk

theorem checkInterval_modeSound : u.checkInterval.modeSound := by unfold State.checkInterval; split <;> exact h

/-- An expired hold distance leads from HOLD to STANDBY (R181). -/
theorem checkHold_modeSound : u.checkHold.modeSound := by
  unfold State.checkHold
  split
  · rename_i hp
    obtain ⟨hhold, _⟩ := (holdPassed_iff _).1 hp
    exact modeSound_setMode h (by rw [hhold]; decide) nofun
  · exact h

/-- A fix is applied against a slot with a live image, and so in no table of CONFIG (R10, R13). -/
theorem judgeFix_modeSound {i : Nat} {r : Record} (hl : (u.table.slot i).live = some r) (e : Int) :
    (u.judgeFix i e).modeSound := by
  have hm : u.mode.mode ≠ .config := ne_config_of_slot h fun hf => by rw [hf] at hl; exact nomatch hl
  unfold State.judgeFix
  split
  · exact modeSound_of_cycling h hm rfl rfl rfl
  · exact h

theorem takeMessage_modeSound (m : MarkerReception) : (u.takeMessage m).modeSound := by
  unfold State.takeMessage
  split
  · split
    · exact h
    · split
      · exact h
      · obtain ⟨_, r, hl⟩ := slotOfMarker_slot (by assumption)
        exact judgeFix_modeSound (u := u.setPosition { u.position.endReception with latch := none }) h hl _
  · exact h

theorem markerByte_modeSound (b : Byte) (ok : Bool) : (u.markerByte b ok).modeSound := by
  unfold State.markerByte
  split
  · split <;> exact h
  · split
    · exact takeMessage_modeSound h _
    · exact h

/-- A fence begins the next cycle with the period in force (R69). -/
theorem takeFence_modeSound (hr : u.timer.running = true) : u.takeFence.modeSound := by
  have hm := ne_config_of_running h hr
  obtain ⟨_, hcycling, hperiod⟩ := h
  obtain ⟨hcomp, hrunning, _⟩ := hcycling hm
  exact ⟨fun hc => absurd hc hm, fun _ => ⟨hcomp, hrunning, u.timer.period, rfl, hperiod⟩, hperiod⟩

end

theorem putCar_composition (d : DemandUnit) (k : Nat) (f : CarOutput → CarOutput) :
    (d.putCar k f).composition = d.composition := by
  unfold DemandUnit.putCar; split <;> rfl

/-- An entry is served only of a pass (R139). -/
theorem servable_pass {u : State} {k : Nat} {e : PlanEntry} {car : Car} {p : Int}
    (h : u.servable = some (k, e, car, p)) : ∃ n, u.poll.pass = some n := by
  unfold State.servable at h
  obtain ⟨_, h⟩ := Option.ite_none_right_eq_some.1 h
  split at h
  · exact nomatch h
  · rename_i hnext
    unfold PollEngine.nextEntry at hnext
    split at hnext
    · exact nomatch hnext
    · exact ⟨_, by assumption⟩

/-- An inquiry starts only of a WAITING request (R144). -/
theorem startableRequest_waiting {u : State} {k : Nat} {car : Car} (h : u.startableRequest = some (k, car)) :
    u.poll.manual = .waiting k := by
  unfold State.startableRequest at h
  obtain ⟨_, h⟩ := Option.ite_none_right_eq_some.1 h
  split at h
  · exact nomatch h
  · rename_i n hn
    obtain ⟨_, _, hk⟩ := Option.map_eq_some_iff.1 h
    obtain ⟨rfl, _⟩ := Prod.mk.inj hk
    unfold ManualSlot.waitingCar at hn
    split at hn
    · exact nomatch hn
    · rename_i hmanual
      exact Option.some.inj hn ▸ hmanual
    · exact nomatch hn

/-- The outcome of an exchange ends the pass or keeps it, and empties the manual slot or keeps it (R126, R139, R144). -/
theorem takeOutcome_modeSound {u : State} (h : u.modeSound) (e : Exchange) (o : ExchangeOutcome) (r : Option Reply) :
    (u.takeOutcome e o r).modeSound := by
  have hended : (u.setPoll (u.poll.endExchange e)).modeSound := by
    refine modeSound_setPoll_idle h (fun hp => ?_) fun k hk => ?_
    · simp [PollEngine.endExchange, hp]
    · unfold PollEngine.endExchange at hk
      simp only at hk
      split at hk
      · exact nomatch hk
      · exact hk
  have hstored := modeSound_setDemand (u := (u.setPoll (u.poll.endExchange e)).countOutcome e.car o) hended
    (x := u.demand.putCar e.car fun c => c.settle e.kind r) fun hc => by rw [putCar_composition]; exact hc
  unfold State.takeOutcome State.applyOutcome
  simp only
  split
  · exact hended
  · split
    · exact hstored
    · exact hstored

/-- Every change of state that a row can make keeps what the modes promise. -/
theorem keeps_modeSound : Keeps State.modeSound where
  start u h _ := by
    unfold actStart
    split
    · exact h
    · rename_i hc
      exact startCycling_modeSound h (by rw [hc]; rfl)
  run u h hm := by unfold actRun; split; exact h; exact modeSound_setMode h hm nofun
  stby u h hm := by unfold actStby; split; exact h; exact modeSound_setMode h hm nofun
  hold u d h hm := by
    unfold actHold
    split
    · exact h
    · exact modeSound_setMode h (by rw [hm]; decide) nofun
  stop u h _ := by unfold actStop; split; exact h; exact stopCycling_modeSound h
  reset u h := modeSound_setMode_same h rfl
  setcal u n h := by unfold actSetcal; split <;> exact h
  setpos u p h := h
  setfix u f h := by
    unfold actSetfix
    split
    · exact h
    · exact checkInterval_modeSound (u := u.setPosition _) h
  openr u f h hm := by
    unfold actOpenr
    split
    · exact h
    · exact h
    · exact modeSound_setTable h hm _
  putp u vs h hm := by unfold actWrite; split; exact h; split; exact h; exact modeSound_setTable h hm _
  contp u vs h hm := by unfold actWrite; split; exact h; split; exact h; exact modeSound_setTable h hm _
  closer u h hm := by
    unfold actCloser
    split
    · exact h
    · split
      · exact h
      · exact h
      · exact modeSound_setTable h hm _
  abandr u h hm := by unfold actAbandr; split; exact h; exact modeSound_setTable h hm _
  wdraw u f h hm := by unfold actWdraw; split; exact h; split; exact h; exact modeSound_setTable h hm _
  wdsect u f h hm := by unfold actWdsect; split; exact h; exact modeSound_setTable h hm _
  clrtab u h hm := modeSound_setTable h hm _
  rdrec u f h := by unfold actRdrec; split; exact h; split; exact h; exact readSlot_modeSound h _ _
  rdslot u f h := by unfold actRdslot; split; exact h; split; exact h; exact readSlot_modeSound h _ _
  tsum u h := h
  cover u p h hm := by unfold actCover; split; exact modeSound_setTable h hm _; exact h
  setcyc u f h := by
    unfold actSetcyc
    split
    · exact h
    · exact setcyc_modeSound h _ (by omega)
  setcomp u p h _ := by unfold actSetcomp; split; exact h; exact compose_modeSound h _
  settrav u f h _ := by unfold actSettrav; split <;> exact h
  setlim u f h _ := by unfold actSetlim; split <;> exact h
  setbus u n h := by unfold actSetbus; split; exact h; split <;> exact h
  ldplan u p h := by unfold actLdplan; split <;> exact h
  canplan u h := by
    unfold actCanplan
    split
    · exact h
    · exact modeSound_setPoll_idle h (fun _ => rfl) fun _ => id
  canstby u h := by unfold actCanstby; split <;> exact h
  xchg u k h hm := by
    unfold actXchg
    split
    · exact h
    · exact h
    · split
      · exact h
      · exact modeSound_setPoll h hm _
  canxchg u h := by
    unfold actCanxchg
    split
    · exact modeSound_setPoll_idle h id nofun
    · exact h
    · exact h
  rdxchg u h := by unfold actRdxchg; split <;> exact h
  restore u k h _ := by unfold actRestore; split; exact h; split <;> exact h
  pulse u d h := checkHold_modeSound (checkInterval_modeSound
    (modeSound_setMode_same (u := u.setPosition (u.position.pulse d)) h (by rw [travel_eq]; rfl)))
  interval u h := checkInterval_modeSound h
  holdx u h := checkHold_modeSound h
  strobe u h := h
  mbyte u b ok h := markerByte_modeSound h b ok
  cut u h := h
  fence u h hr := takeFence_modeSound h hr
  serve u k e car p h hs :=
    let ⟨_, hp⟩ := servable_pass hs
    modeSound_of_cycling h (ne_config_of_pass h hp) rfl rfl (putCar_composition _ _ _)
  inquiry u k car h hs := modeSound_setPoll h (ne_config_of_waiting h (startableRequest_waiting hs)) _
  sent u h _ := h
  sbit u h _ := h
  rbyte u e b ok h _ _ _ := h
  outcome u e o r h _ := takeOutcome_modeSound h e o r
  settled u h _ := h
  answered u h := modeSound_setMode_same (u := u.setLink _) h rfl
  soft u h := softReset_modeSound h
  pin _ _ _ := reset_modeSound
  pow _ _ _ := reset_modeSound
  rel u h := h

/-- Settles O13: each change of state that a row can make keeps the promise, and the port does not bear on it. -/
theorem modesKeepTheirPromise : Obligations.ModesKeepTheirPromise :=
  step_keeps (fun _ _ h => h) (exec_keeps keeps_modeSound fun _ _ h => h)

end Sys2Proof.Machine
end

section
/-! PROOFS. RDREC and RDSLOT. -/

namespace Sys2Proof.Machine

/-! ### What a read of a slot returns -/

section
variable {x : Slot} {r : Record}

/-- The image a read returns: the live one, or the pending one of a slot without (R62). -/
theorem returnedImage_eq_some (h : x.live = some r ∨ x.live = none ∧ x.pending = .image r) :
    x.returnedImage = some r := by
  unfold Slot.returnedImage
  rcases h with h | ⟨hl, hp⟩
  · rw [h]
  · rw [hl]; simp [Slot.pendingImage, hp]

/-- A slot that returns an image is STAGED where it has no live one (R27, R62). -/
theorem returnedKind_eq (h : x.live = some r ∨ x.live = none ∧ x.pending = .image r) :
    x.returnedKind = if x.live = none then .pending else .live := by
  unfold Slot.returnedKind
  rcases h with h | ⟨hl, hp⟩
  · have hlive : x.live ≠ none := by simp [h]
    have hstaged : x.state ≠ .staged := fun hs => hlive (Slot.pending_of_staged hs).1
    rw [if_neg hstaged, if_neg hlive]
  · rw [if_pos (by simp [Slot.state, hl, hp]), if_pos hl]

/-- What each part of a CURVE adds to a read (R63). -/
theorem partReport_curve {v : Curve} (h : r.body = .curve v) (part : ReadPart) :
    (part = .entry → x.partReport r part = .entry v.entry) ∧ (part = .exit → x.partReport r part = .exit v.exit)
      ∧ (part = .fields → x.partReport r part = .fields
        { kind := .curve, sectionTag := r.sectionTag, e0 := r.e0, e1 := v.e1, e2 := v.e2, e3 := r.e3,
          hand := .hand v.hand, angleOrCap := v.angle, band := v.band, nIn := v.entry.length, nOut := v.exit.length,
          marker := r.marker, publishedAt := x.publishedAt, activatedAt := x.activatedAt,
          confirmedAt := x.confirmedAt }) := by
  refine ⟨?_, ?_, ?_⟩
  · rintro rfl; simp [Slot.partReport, Record.entryValues, h]
  · rintro rfl; simp [Slot.partReport, Record.exitValues, h]
  · rintro rfl; simp [Slot.partReport, Slot.fieldsReport, h]

/-- What each part of a LIMIT adds to a read: no profile, and e1, e2 and the hand field 0 (R63; log 7). -/
theorem partReport_limit {cap : Nat} (h : r.body = .limit cap) (part : ReadPart) :
    (part = .entry → x.partReport r part = .entry []) ∧ (part = .exit → x.partReport r part = .exit [])
      ∧ (part = .fields → x.partReport r part = .fields
        { kind := .limit, sectionTag := r.sectionTag, e0 := r.e0, e1 := 0, e2 := 0, e3 := r.e3, hand := .zero,
          angleOrCap := cap, band := none, nIn := 0, nOut := 0, marker := r.marker, publishedAt := x.publishedAt,
          activatedAt := x.activatedAt, confirmedAt := x.confirmedAt }) := by
  refine ⟨?_, ?_, ?_⟩
  · rintro rfl; simp [Slot.partReport, Record.entryValues, h]
  · rintro rfl; simp [Slot.partReport, Record.exitValues, h]
  · rintro rfl; simp [Slot.partReport, Slot.fieldsReport, h]

/-- The items every read carries (R63). -/
theorem common_eq (n : Nat) (h : x.live = some r ∨ x.live = none ∧ x.pending = .image r) : x.common n r =
    { slot := n, key := r.key, state := x.state, pending := x.pending.kind, fadeLevel := x.fade.getD 0,
      overwritten := x.overwritten, confirmed := x.confirmed,
      image := if x.live = none then .pending else .live } := by
  rw [← returnedKind_eq h]
  rfl

end

/-! ### What the two commands read -/

section
variable (s : State)

theorem readSlot_free {n : Nat} {x : Slot} (hx : s.table.slots[n]? = some x) (hl : x.live = none)
    (hp : x.pending = .none) (part : ReadPart) :
    s.readSlot n part = { state := s, result := .done, payload := .freeSlot n } := by
  have : (s.table.slot n).returnedImage = none := by
    rw [slot_of_getElem? hx]; simp [Slot.returnedImage, Slot.pendingImage, hl, hp]
  simp [State.readSlot, this]

theorem readSlot_image {n : Nat} {x : Slot} {r : Record} (hx : s.table.slots[n]? = some x)
    (hr : x.returnedImage = some r) (part : ReadPart) : s.readSlot n part =
      { state := s.setTable { s.table with slots := s.table.slots.set n { x with overwritten := false } }
        result := .done
        payload := .record (x.common n r) (x.partReport r part) } := by
  simp [State.readSlot, CurveTable.clearOverwritten, CurveTable.putSlot, slot_of_getElem? hx, hr]

theorem actRdrec_unknown {key : Word} {part : ReadPart} (h : s.table.noSlot (viewHasKey key.toNat)) :
    actRdrec { key := key, part := .named part } s = .refuse s .noSuchKey := by
  simp [actRdrec, (slotOfKey_none s.table key.toNat).2 h]

theorem actRdrec_found {key : Word} {part : ReadPart} {n : Nat} {x : Slot}
    (h : s.table.lowestAt (viewHasKey key.toNat) n x) :
    actRdrec { key := key, part := .named part } s = s.readSlot n part := by
  simp [actRdrec, (slotOfKey_some s.table key.toNat n).2 ⟨x, h⟩]

theorem actRdslot_refused {n : Nat} {part : Coded ReadPart} (h : part = .other ∨ 63 < n) :
    actRdslot { slot := n, part := part } s = .refuse s .badParam := by
  cases part with
  | other => rfl
  | named p =>
    have hn : slotCount ≤ n := h.resolve_left nofun
    simp [actRdslot, hn]

theorem actRdslot_read {n : Nat} {part : ReadPart} (h : n ≤ 63) :
    actRdslot { slot := n, part := .named part } s = s.readSlot n part :=
  if_neg (Nat.not_le_of_lt (Nat.lt_succ_of_le h))

end

/-- A command that reads a slot with an image answers the common items and the part, and clears the overwritten flag
(R30, R63). -/
theorem runCommand_reads {c : CommandCode} {i : Instr} {owner : State → CommandResult} {s : State} {n : Nat} {x : Slot}
    {r : Record} {part : ReadPart} (hs : s.takes i) (hi : i.code? = some c) (ha : c.available s.mode.mode = true)
    (ho : owner (s.admitted c) = (s.admitted c).readSlot n part) (hx : s.table.slots[n]? = some x)
    (hr : x.returnedImage = some r) :
    ∃ t, runCommand c i owner s = .next t ∧ Answered s t c .done (.record (x.common n r) (x.partReport r part))
      ∧ KeptBut [.table] s t
      ∧ t.table = { s.table with slots := s.table.slots.set n { x with overwritten := false } } :=
  runCommand_answers
    (Q := fun t => t.table = { s.table with slots := s.table.slots.set n { x with overwritten := false } })
    _ hs hi ha (ho.trans (readSlot_image (s.admitted c) hx hr part)) (LinkKept.refl (s.admitted c))
    ((KeptBut.refl _ (s.admitted c)).setTable _ (by simp)) rfl

/-- Settles O37: the refusals, a FREE slot, and the one answer that both commands make of a slot with an image. -/
theorem recordsAreReadBack : Obligations.RecordsAreReadBack := by
  refine ⟨fun s key i part hs hi => ⟨fun hpart => ?_, fun hpart hno => ?_⟩,
    fun s n i part hs hi => ⟨fun hbad => ?_, fun x hpart hn hx hl hp => ?_⟩,
    fun s c i part n x r key hs hi hr => ?_⟩
  · subst hi hpart
    exact runCommand_answers_unchanged (owner := actRdrec { key := key, part := .other }) hs rfl rfl rfl
  · cases part with
    | other => exact absurd rfl hpart
    | named p =>
      subst hi
      exact runCommand_answers_unchanged (owner := actRdrec _) hs rfl rfl (actRdrec_unknown (s.admitted .rdrec) hno)
  · subst hi
    exact runCommand_answers_unchanged (owner := actRdslot _) hs rfl rfl (actRdslot_refused (s.admitted .rdslot) hbad)
  · cases part with
    | other => exact absurd rfl hpart
    | named p =>
      subst hi
      exact runCommand_answers_unchanged (owner := actRdslot _) hs rfl rfl
        ((actRdslot_read (s.admitted .rdslot) hn).trans (readSlot_free (s.admitted .rdslot) hx hl hp p))
  · have hreads : ∃ t, exec i s = .next t ∧ Answered s t c .done (.record (x.common n r) (x.partReport r part))
        ∧ KeptBut [.table] s t
        ∧ t.table = { s.table with slots := s.table.slots.set n { x with overwritten := false } } := by
      have himage := returnedImage_eq_some hr
      rcases hi with ⟨rfl, rfl, hn, hx⟩ | ⟨rfl, rfl, hat⟩
      · exact runCommand_reads (owner := actRdslot _) hs rfl rfl (actRdslot_read (s.admitted .rdslot) hn) hx himage
      · exact runCommand_reads (owner := actRdrec _) hs rfl rfl (actRdrec_found (s.admitted .rdrec) hat) hat.1 himage
    obtain ⟨t, hexec, hanswer, hkept, htable⟩ := hreads
    exact ⟨t, _, _, hexec, hkept, hanswer, htable, common_eq n hr, fun v hv => partReport_curve hv part,
      fun cap hcap => partReport_limit hcap part⟩

end Sys2Proof.Machine
end

section
/-! PROOFS. A payload of a wrong length. -/

namespace Sys2Proof.Machine

/-- With a payload of a wrong length, the block refuses BAD_PARAM, whatever it makes of its parameters (R43; log 5). -/
theorem runCommand_isWrong {α : Type} {p : Payload α} {i : Instr} {c d : CommandCode} (hc : some d = some c)
    (hp : p.isWrong = true) (owner : α → State → CommandResult) (s : State) :
    runCommand d i (withParameters p owner) s = runCommand c i (fun u => .refuse u .badParam) s := by
  cases hc
  cases p with
  | exact a => exact nomatch hp
  | wrongLength => rfl

/-- A row whose payload has a wrong length is a command row whose block refuses BAD_PARAM (R43, R166; log 5). -/
theorem exec_wrongLength {i : Instr} {c : CommandCode} (hc : i.code? = some c) (hw : i.wrongLength = true) (s : State) :
    exec i s = runCommand c i (fun u => .refuse u .badParam) s := by
  cases i with
  | start p | run p | stby p | hold p | stop p | reset p | rdstat p | setcal p | setpos p | setfix p | rdpos p
  | openr p | putp p | contp p | closer p | abandr p | wdraw p | wdsect p | clrtab p | rdrec p | rdslot p | findat p
  | tsum p | cover p | setcyc p | settrav p | rdcomp p | setlim p | rdcar p | setbus p | canplan p | canstby p | xchg p
  | canxchg p | rdxchg p | restore p | rdatt p | setmask p => exact runCommand_isWrong hc hw _ s
  | setcomp payload | ldplan payload => exact nomatch hw
  | odometerPulse | fixIntervalExpiry | holdExpiry | markerStrobe | markerMessage | markerMessageCutShort | fence
  | planEntryServed | manualExchangeStart | frameSent | replyReceived | replyCutShort | replyTimeout | settlingDone
  | frameClosed | frameAborted | answerSent | softwareReset | pinReset | powerOn | replyStartBit | replyByteTaken
  | linkCharacter | markerByte | resetNRelease => exact nomatch hc

/-- Settles O7: whatever its block, the row is refused before any parameter is looked at. -/
theorem wrongLengthIsBadParam : Obligations.WrongLengthIsBadParam := by
  intro i s c hc hw hs ha
  rw [exec_wrongLength hc hw]
  exact runCommand_answers_unchanged hs hc ha rfl

end Sys2Proof.Machine
end

section
/-! SUPPORT. What a command that changes the Curve Table alone answers. -/

namespace Sys2Proof.Machine

/-- A command row that its block answers, leaving another table. -/
theorem runCommand_sets_table {c : CommandCode} {i : Instr} {owner : State → CommandResult} {s : State} {x : CurveTable}
    {r : ResultCode} {p : AnswerPayload} (hs : s.takes i) (hi : i.code? = some c)
    (ha : c.available s.mode.mode = true)
    (ho : owner (s.admitted c) = { state := (s.admitted c).setTable x, result := r, payload := p }) :
    ∃ t, runCommand c i owner s = .next t ∧ Answered s t c r p ∧ KeptBut [.table] s t ∧ t.table = x :=
  runCommand_answers (Q := fun t => t.table = x) _ hs hi ha ho (LinkKept.refl (s.admitted c))
    ((KeptBut.refl _ (s.admitted c)).setTable _ (by simp)) rfl

/-- The table is among what is kept where it is as it was. -/
theorem KeptBut.of_table_eq {s t : State} (h : KeptBut [.table] s t) (ht : t.table = s.table) : KeptBut [] s t := by
  obtain ⟨hb, hrest⟩ := h
  refine ⟨fun b => Or.inr ?_, hrest⟩
  rcases hb b with hm | hsame
  · obtain rfl := List.mem_singleton.1 hm
    exact ht
  · exact hsame

end Sys2Proof.Machine
end

section
/-! PROOFS. COVER, TSUM and FINDAT. -/

namespace Sys2Proof.Machine

/-! ### COVER -/

theorem strictlyAhead_iff (travel : TravelSense) (lead p : Nat) :
    strictlyAhead travel lead p = true ↔ if travel = .ascending then lead < p else p < lead := by
  cases travel <;> simp [strictlyAhead]

/-- Settles O40: the two branches of COVER's act. -/
theorem coverDeclaresTheTrackAhead : Obligations.CoverDeclaresTheTrackAhead := by
  intro s p isAhead hs hm hahead
  have ha : CommandCode.cover.available s.mode.mode = true := decide_eq_true hm
  have hcheck : strictlyAhead s.position.travel s.leadCm p.toNat = true ↔ isAhead :=
    (strictlyAhead_iff _ _ _).trans hahead.symm
  refine ⟨fun hn => ?_, fun hy => ?_⟩
  · exact runCommand_answers_unchanged (owner := actCover p) hs rfl ha (if_neg fun h => hn (hcheck.1 h))
  · exact runCommand_sets_table (owner := actCover p) hs rfl ha (if_pos (hcheck.2 hy))

/-! ### TSUM -/

theorem clearBitmap_eq (t : CurveTable) :
    t.clearBitmap = { t with bitmap := List.replicate t.bitmap.length false } := by
  rw [CurveTable.clearBitmap, List.map_const']

theorem horizonDistance_eq (travel : TravelSense) (lead reach : Nat) : horizonDistance travel lead reach =
    if travel = .ascending then (reach : Int) - lead else (lead : Int) - reach := by
  cases travel <;> rfl

/-- Settles O39: the reach is the farthest place of the view, and the counts are those of the slots' states. -/
theorem tsumSummarisesTheTable : Obligations.TsumSummarisesTheTable := by
  intro s reach hs hreach
  obtain ⟨t, hexec, hanswer, hkept, htable⟩ := runCommand_sets_table (owner := actTsum ()) hs rfl rfl rfl
  refine ⟨t, hexec, hkept, htable.trans (clearBitmap_eq s.table), ?_⟩
  have hfarthest : s.table.reachNow s.position.travel = reach := isFarthest_unique (reachNow_spec _ _) hreach
  have hreport : (s.admitted .tsum).tableReport = s.tableReport := rfl
  rw [hreport] at hanswer
  simpa [State.tableReport, slotCounts, countState, hfarthest, horizonDistance_eq, Slot.isArmedOrActive] using hanswer

/-! ### FINDAT -/

theorem covers_iff (r : Record) (p : Nat) : r.covers p = true ↔ r.e0 ≤ p ∧ p < r.e3 := by
  simp [Record.covers]

theorem foundAt_eq (x : Slot) (p : Nat) : x.foundAt p = x.live.bind fun r =>
    if r.e0 ≤ p ∧ p < r.e3 then some { key := r.key, kind := r.kind, state := x.state } else none := by
  unfold Slot.foundAt
  cases x.live with
  | none => rfl
  | some r => simp only [covers_iff, Option.bind_some]

/-- A cap that is 800 or that of a LIMIT record at the place, and no greater than 800 nor any of theirs, is the cap of
the place (R64, R102). -/
theorem limitCap_eq {slots : List Slot} {p cap : Nat}
    (hmem : cap = 800 ∨ ∃ x ∈ slots, ∃ r, x.live = some r ∧ r.body = .limit cap ∧ r.e0 ≤ p ∧ p < r.e3)
    (hmax : cap ≤ 800)
    (hleast : ∀ x ∈ slots, ∀ r n, x.live = some r → r.body = .limit n → r.e0 ≤ p → p < r.e3 → cap ≤ n) :
    limitCap slots p = cap := by
  obtain ⟨hle, hlow, hat⟩ := limitCap_spec slots p
  apply Nat.le_antisymm
  · rcases hmem with rfl | ⟨x, hx, r, hr, hb, h0, h3⟩
    · exact hle
    · exact hlow x hx r cap hr hb (Int.ofNat_le.2 h0) (Int.ofNat_lt.2 h3)
  · rcases hat with h | ⟨x, hx, r, hr, hb, h0, h3⟩
    · exact h ▸ hmax
    · exact hleast x hx r _ hr hb (Int.ofNat_le.1 h0) (Int.ofNat_lt.1 h3)

/-- Settles O38: the report's entries and its raw demand, part by part. -/
theorem findatShowsThePlace : Obligations.FindatShowsThePlace := by
  intro s p all sum raw demand cap hs hall hsum hraw hmem hmax hleast hdemand
  obtain ⟨t, hexec, hanswer, hkept⟩ := runCommand_answers_unchanged (owner := actFindat p) hs rfl rfl rfl
  refine ⟨t, hexec, hkept, ?_⟩
  have hentries : s.table.slots.filterMap (fun x => x.foundAt (p.toNat : Int)) = all := by
    simp only [foundAt_eq, hall]
  have hcap : limitCap s.table.slots (p.toNat : Int) = cap := limitCap_eq hmem hmax hleast
  have hlean : rawDemand s.table.slots s.demand.limits.band s.position.snapshot.speed (p.toNat : Int) = demand := by
    rw [rawDemand, rawSum, hcap, ← hsum, hdemand, hraw]
    rfl
  have hreport : s.findReport (p.toNat : Int) = .found (all.take 8) (decide (8 < all.length)) demand := by
    rw [State.findReport, hentries, hlean]
    rfl
  exact hreport ▸ hanswer

end Sys2Proof.Machine
end

section
/-! PROOFS. OPENR, ABANDR, PUTP and CONTP. -/

namespace Sys2Proof.Machine

/-! ### OPENR -/

section
variable {f : OpenFields}

theorem limitOk_iff : f.limitOk = true ↔ f.e0 < f.e3 ∧ f.bandPresent = false ∧ f.nIn = 0 ∧ f.nOut = 0 := by
  simp [OpenFields.limitOk, and_assoc]

/-- The body that the fields give: a CURVE or a LIMIT that passes R45. -/
theorem draft_eq_some {body : BodyDraft} : f.draft = some body ↔
    (f.kind = .named .curve ∧ f.curveOk = true ∧ ∃ h, f.hand = .named h ∧ body = .curve
        { e1 := f.e1.toNat, e2 := f.e2.toNat, hand := h, angle := f.angleOrCap, band := f.band, nIn := f.nIn,
          nOut := f.nOut })
      ∨ f.kind = .named .limit ∧ f.limitOk = true ∧ body = .limit f.angleOrCap := by
  unfold OpenFields.draft
  split
  · rename_i h hkind hhand
    simp [hkind, hhand, @eq_comm _ body]
  · rename_i hkind hhand
    simp [hkind, hhand]
  · rename_i hkind
    simp [hkind, @eq_comm _ body]
  · rename_i hkind
    simp [hkind]

/-- The assembly that the fields give: its intent is named, its body passes R45, and so do the common fields (R46). -/
theorem openAssembly_eq_some {a : Assembly} : f.assembly = some a ↔
    ∃ i body, f.intent = .named i ∧ f.draft = some body ∧ f.commonOk = true
      ∧ a = { intent := i, key := f.key.toNat, sectionTag := f.sectionTag, e0 := f.e0.toNat, e3 := f.e3.toNat,
              body := body, marker := f.marker, values := [], writePosition := 0 } := by
  unfold OpenFields.assembly
  split
  · rename_i i body hintent hdraft
    simp [hintent, hdraft, @eq_comm _ a]
  · rename_i i hintent hdraft
    simp [hdraft]
  · rename_i hintent
    simp [hintent]

/-- An assembly declares as many values as the fields do (R44, R46). -/
theorem openAssembly_total {a : Assembly} (h : f.assembly = some a) : a.total = f.nIn + f.nOut := by
  obtain ⟨i, body, _, hdraft, _, rfl⟩ := openAssembly_eq_some.1 h
  rcases draft_eq_some.1 hdraft with ⟨_, _, _, _, rfl⟩ | ⟨_, hok, rfl⟩
  · rfl
  · obtain ⟨_, _, hin, hout⟩ := limitOk_iff.1 hok
    rw [hin, hout]
    rfl

/-- The fields open an assembly where they meet the conditions on both kinds and those on one of them (R45). -/
theorem openAssembly_isSome : (∃ a, f.assembly = some a) ↔
    ((∃ i, f.intent = .named i) ∧ f.commonOk = true)
      ∧ (f.kind = .named .curve ∧ (∃ h, f.hand = .named h) ∧ f.curveOk = true
        ∨ f.kind = .named .limit ∧ f.limitOk = true) := by
  simp only [openAssembly_eq_some]
  constructor
  · rintro ⟨_, i, body, hintent, hdraft, hcommon, _⟩
    refine ⟨⟨⟨i, hintent⟩, hcommon⟩, ?_⟩
    exact (draft_eq_some.1 hdraft).imp (fun ⟨hkind, hok, h, hhand, _⟩ => ⟨hkind, ⟨h, hhand⟩, hok⟩)
      fun ⟨hkind, hok, _⟩ => ⟨hkind, hok⟩
  · rintro ⟨⟨⟨i, hintent⟩, hcommon⟩, ⟨hkind, ⟨h, hhand⟩, hok⟩ | ⟨hkind, hok⟩⟩
    · exact ⟨_, i, _, hintent, draft_eq_some.2 (Or.inl ⟨hkind, hok, h, hhand, rfl⟩), hcommon, rfl⟩
    · exact ⟨_, i, _, hintent, draft_eq_some.2 (Or.inr ⟨hkind, hok, rfl⟩), hcommon, rfl⟩

end

theorem actOpenr_assemblyOpen {s : State} (h : s.table.assembly.isSome) (f : OpenFields) :
    actOpenr f s = .refuse s .assemblyOpen := by
  obtain ⟨a, ha⟩ := Option.isSome_iff_exists.1 h
  simp [actOpenr, ha]

theorem actOpenr_badParam {s : State} (h : s.table.assembly = none) {f : OpenFields} (hf : f.assembly = none) :
    actOpenr f s = .refuse s .badParam := by
  simp [actOpenr, h, hf]

theorem actOpenr_opens {s : State} (h : s.table.assembly = none) {f : OpenFields} {a : Assembly}
    (hf : f.assembly = some a) :
    actOpenr f s = { state := s.setAssembly (some a), result := .done, payload := .value a.total } := by
  simp [actOpenr, h, hf]

/-! ### ABANDR -/

theorem actAbandr_noAssembly {s : State} (h : s.table.assembly = none) : actAbandr () s = .refuse s .noAssembly := by
  simp [actAbandr, h]

theorem actAbandr_closes {s : State} (h : s.table.assembly.isSome) : actAbandr () s = .done (s.setAssembly none) := by
  obtain ⟨a, ha⟩ := Option.isSome_iff_exists.1 h
  simp [actAbandr, ha]

/-- Settles O31: the conditions of R45 decide whether the fields give an assembly, and the state whether one is open. -/
theorem assemblyIsOpenedAndAbandoned : Obligations.AssemblyIsOpenedAndAbandoned := by
  refine ⟨fun s f common curve limit hs hm hcommon hcurve hlimit => ?_, fun s hs hm => ?_⟩
  · have ha : CommandCode.openr.available s.mode.mode = true := decide_eq_true hm
    have hopens : (∃ a, f.assembly = some a) ↔ common ∧ (curve ∨ limit) := by
      rw [openAssembly_isSome, hcommon, hcurve, hlimit, commonOk_iff, curveOk_iff, limitOk_iff]
      simp only [BitVec.le_def, BitVec.lt_def, Ne, BitVec.toNat_eq, BitVec.ofNat_eq_ofNat, BitVec.toNat_ofNat,
        Nat.zero_mod]
    refine ⟨fun hopen => ?_, fun hnone hbad => ?_, fun hnone hc hkind => ?_⟩
    · exact runCommand_answers_unchanged (owner := actOpenr f) hs rfl ha
        (actOpenr_assemblyOpen (s := s.admitted .openr) hopen f)
    · have hf : f.assembly = none := Option.eq_none_iff_forall_ne_some.2 fun a hf => hbad (hopens.1 ⟨a, hf⟩)
      exact runCommand_answers_unchanged (owner := actOpenr f) hs rfl ha
        (actOpenr_badParam (s := s.admitted .openr) hnone hf)
    · obtain ⟨a, hf⟩ := hopens.2 ⟨hc, hkind⟩
      obtain ⟨t, hexec, hanswer, hkept, htable⟩ := runCommand_sets_table (owner := actOpenr f) hs rfl ha
        (actOpenr_opens (s := s.admitted .openr) hnone hf)
      rw [openAssembly_total hf] at hanswer
      obtain ⟨i, body, hintent, hdraft, _, rfl⟩ := openAssembly_eq_some.1 hf
      refine ⟨t, _, hexec, hanswer, hkept, htable, hintent, rfl, rfl, rfl, rfl, rfl, rfl, rfl, fun hl => ?_,
        fun hc => ?_⟩
      · obtain ⟨hkind, _⟩ := hlimit.1 hl
        rcases draft_eq_some.1 hdraft with ⟨hk, _⟩ | ⟨_, _, hbody⟩
        · exact nomatch hk.symm.trans hkind
        · exact hbody
      · obtain ⟨hkind, _⟩ := hcurve.1 hc
        rcases draft_eq_some.1 hdraft with ⟨_, _, hbody⟩ | ⟨hk, _⟩
        · exact hbody
        · exact nomatch hk.symm.trans hkind
  · have ha : CommandCode.abandr.available s.mode.mode = true := decide_eq_true hm
    refine ⟨fun hnone => ?_, fun hopen => ?_⟩
    · exact runCommand_answers_unchanged (owner := actAbandr ()) hs rfl ha
        (actAbandr_noAssembly (s := s.admitted .abandr) hnone)
    · exact runCommand_sets_table (owner := actAbandr ()) hs rfl ha
        (actAbandr_closes (s := s.admitted .abandr) hopen)

/-! ### PUTP and CONTP -/

section
variable {start : Assembly → Nat} {values : List Word} {s : State}

theorem actWrite_badParam (h : values = [] ∨ 29 < values.length) : actWrite start values s = .refuse s .badParam :=
  if_pos h

theorem actWrite_noAssembly (h : values ≠ []) (hlen : values.length ≤ 29) (ha : s.table.assembly = none) :
    actWrite start values s = .refuse s .noAssembly := by
  have hok : ¬ (values = [] ∨ maxValues < values.length) := fun hor => hor.elim h (Nat.not_lt_of_le hlen)
  simp only [actWrite, if_neg hok, ha]

theorem actWrite_writes (h : values ≠ []) (hlen : values.length ≤ 29) {a : Assembly}
    (ha : s.table.assembly = some a) : actWrite start values s =
      { state := s.setAssembly (some (a.write (start a) values)), result := .done,
        payload := a.writeReport (start a) values } := by
  have hok : ¬ (values = [] ∨ maxValues < values.length) := fun hor => hor.elim h (Nat.not_lt_of_le hlen)
  simp only [actWrite, if_neg hok, ha]

/-- PUTP and CONTP are one command but for the place they start at (R47 to R49). -/
theorem exec_write {c : CommandCode} {i : Instr} (hm : s.mode.mode ≠ .config)
    (hi : c = .putp ∧ i = .putp (.exact values) ∨ c = .contp ∧ i = .contp (.exact values)) :
    i.code? = some c ∧ c.available s.mode.mode = true
      ∧ exec i s = runCommand c i (actWrite (fun a => if c = .putp then 0 else a.writePosition) values) s := by
  rcases hi with ⟨rfl, rfl⟩ | ⟨rfl, rfl⟩
  · exact ⟨rfl, decide_eq_true hm, rfl⟩
  · exact ⟨rfl, decide_eq_true hm, rfl⟩

end

/-- What a write answers: the values taken, those ignored, and the places left unwritten (R47). -/
theorem writeReport_eq (a : Assembly) (place : Nat) (values : List Word) (h : place ≤ a.values.length) :
    a.writeReport place values =
      .written (min values.length (a.total - place)) (values.length - min values.length (a.total - place))
        (a.total - max a.values.length (place + min values.length (a.total - place))) := by
  rw [Assembly.writeReport, accepted_length, write_length a place values h]

/-- A write replaces the values and the write position (R47). -/
theorem write_eq (a : Assembly) (place : Nat) (values : List Word) : a.write place values =
    { a with values := (a.write place values).values
             writePosition := place + min values.length (a.total - place) } := by
  rw [← accepted_length]
  rfl

/-- Settles O32: both commands are one write, whose values `write_length` and `write_getElem?` give place by place. -/
theorem valuesAreWrittenInOrder : Obligations.ValuesAreWrittenInOrder := by
  intro s c i values hs hm hi
  obtain ⟨hcode, ha, hexec⟩ := exec_write hm hi
  rw [hexec]
  refine ⟨fun hbad => ?_, fun hne hlen hnone => ?_, ?_⟩
  · exact runCommand_answers_unchanged hs hcode ha (actWrite_badParam hbad)
  · exact runCommand_answers_unchanged hs hcode ha (actWrite_noAssembly (s := s.admitted c) hne hlen hnone)
  · rintro a place taken count hne hlen hsome hpos - hplace rfl rfl
    obtain ⟨t, hrun, hanswer, hkept, htable⟩ := runCommand_sets_table hs hcode ha
      (actWrite_writes (start := fun a => if c = .putp then 0 else a.writePosition) (s := s.admitted c) hne hlen hsome)
    rw [← hplace] at hanswer htable
    have hwithin : place ≤ a.values.length := by
      rw [hplace]
      split
      · exact Nat.zero_le _
      · exact hpos
    rw [writeReport_eq a place values hwithin] at hanswer
    rw [write_eq a place values] at htable
    exact ⟨t, _, hrun, hkept, hanswer, htable, write_length a place values hwithin,
      fun n _ => write_getElem? a place n values hwithin⟩

end Sys2Proof.Machine
end

section
/-! PROOFS. CLOSER: what each check of R50 answers, the first that fails, and the record staged. -/

namespace Sys2Proof.Machine

/-! ### The checks of the list and its profiles -/

section
variable {a : Assembly}

theorem checkComplete_fails (h : ¬ a.complete) :
    a.checkComplete = some (.incomplete, .value (a.total - a.values.length)) :=
  if_pos (Nat.lt_of_not_le h)

/-- The profile and the place that BAD_PROFILE names (R51; log 15). -/
theorem checkProfiles_fails (h : ¬ a.profilesFit) :
    ∃ which place, a.checkProfiles = some (.badProfile, .profilePlace which place)
      ∧ (¬ profileFits 0 1024 a.entryProfile → which = .entry ∧ offendsAt 0 0 1024 a.entryProfile place)
      ∧ (profileFits 0 1024 a.entryProfile → which = .exit ∧ offendsAt a.nIn 1024 0 a.exitProfile place) := by
  unfold Assembly.checkProfiles
  cases hentry : profileOffence 0 0 1024 a.entryProfile with
  | some place =>
    have hbad : ¬ profileFits 0 1024 a.entryProfile := fun hfit => by
      rw [(profileOffence_none 0 0 1024 _).2 hfit] at hentry
      exact nomatch hentry
    exact ⟨.entry, place, rfl, fun _ => ⟨rfl, profileOffence_some _ _ _ _ _ hentry⟩, fun hfit => absurd hfit hbad⟩
  | none =>
    have hfit := (profileOffence_none 0 0 1024 _).1 hentry
    cases hexit : profileOffence a.nIn 1024 0 a.exitProfile with
    | some place =>
      exact ⟨.exit, place, rfl, fun hbad => absurd hfit hbad, fun _ => ⟨rfl, profileOffence_some _ _ _ _ _ hexit⟩⟩
    | none => exact absurd ⟨hfit, (profileOffence_none _ _ _ _).1 hexit⟩ h

end

/-! ### The checks against the table -/

section
variable {a : Assembly} {t : CurveTable} {n : Nat} {x : Slot}

theorem amendedSlot_new (hi : a.intent = .new) : a.amendedSlot t = none := by simp [Assembly.amendedSlot, hi]

theorem amendedSlot_amend (hi : a.intent = .amend) (h : t.lowestAt (viewHasKey a.key) n x) :
    a.amendedSlot t = some n := by
  simp [Assembly.amendedSlot, hi, (slotOfKey_some t a.key n).2 ⟨x, h⟩]

theorem checkKey_new (hi : a.intent = .new) (h : t.noSlot (viewHasKey a.key)) : a.checkKey t = none := by
  simp [Assembly.checkKey, hi, (slotOfKey_none t a.key).2 h]

theorem checkKey_inUse (hi : a.intent = .new) (h : t.lowestAt (viewHasKey a.key) n x) :
    a.checkKey t = some (.keyInUse, .slot n) := by
  simp [Assembly.checkKey, hi, (slotOfKey_some t a.key n).2 ⟨x, h⟩]

theorem checkKey_unknown (hi : a.intent = .amend) (h : t.noSlot (viewHasKey a.key)) :
    a.checkKey t = some (.noSuchKey, .empty) := by
  simp [Assembly.checkKey, hi, (slotOfKey_none t a.key).2 h]

theorem checkKey_amend (hi : a.intent = .amend) (h : t.lowestAt (viewHasKey a.key) n x) :
    a.checkKey t = a.checkAmended n x := by
  simp [Assembly.checkKey, hi, (slotOfKey_some t a.key n).2 ⟨x, h⟩, slot_of_getElem? h.1]

theorem checkAmended_passes (hp : x.pending ≠ .withdrawal) (hf : x.state ≠ .fading)
    (hk : ∀ r, x.view = some r → r.kind = a.record.kind) : a.checkAmended n x = none := by
  have hany : ¬ (x.view.any fun r => decide (r.kind ≠ a.record.kind)) = true := by
    cases hv : x.view with
    | none => simp
    | some r => simp [hk r hv]
  rw [Assembly.checkAmended, if_neg hp, if_neg hf, if_neg hany]

theorem checkAmended_withdrawn (hp : x.pending = .withdrawal) : a.checkAmended n x = some (.withdrawn, .slot n) :=
  if_pos hp

theorem checkAmended_fading (hp : x.pending ≠ .withdrawal) (hf : x.state = .fading) :
    a.checkAmended n x = some (.fading, .slot n) := by
  rw [Assembly.checkAmended, if_neg hp, if_pos hf]

theorem checkAmended_otherKind (hp : x.pending ≠ .withdrawal) (hf : x.state ≠ .fading) {r : Record}
    (hv : x.view = some r) (hk : r.kind ≠ a.record.kind) : a.checkAmended n x = some (.badParam, .slot n) := by
  rw [Assembly.checkAmended, if_neg hp, if_neg hf, if_pos (by simp [hv, hk])]

theorem checkMarker_passes (h : t.noSlot (otherHasMarker (a.amendedSlot t) a.record)) : a.checkMarker t = none :=
  Option.map_eq_none_iff.2 ((otherMarker_none t _ _).2 h)

theorem checkMarker_fails (h : t.lowestAt (otherHasMarker (a.amendedSlot t) a.record) n x) :
    a.checkMarker t = some (.markerInUse, .slot n) := by
  simp [Assembly.checkMarker, (otherMarker_some t _ _ n).2 ⟨x, h⟩]

theorem checkBehind_fails {s : State} (h : s.behindRear a.record) : a.checkBehind s = some (.behind, .empty) := by
  have hne : a.checkBehind s ≠ none := fun hnone => (checkBehind_none a s).1 hnone h
  unfold Assembly.checkBehind at hne ⊢
  split
  · rfl
  · rename_i hb
    exact absurd (if_neg hb) hne

theorem checkOverlap_passes (h : t.noSlot (otherOverlaps (a.amendedSlot t) a.record)) : a.checkOverlap t = none :=
  Option.map_eq_none_iff.2 ((otherOverlap_none t _ _).2 h)

theorem checkOverlap_fails (h : t.lowestAt (otherOverlaps (a.amendedSlot t) a.record) n x) :
    a.checkOverlap t = some (.overlap, .slot n) := by
  simp [Assembly.checkOverlap, (otherOverlap_some t _ _ n).2 ⟨x, h⟩]

theorem checkRoom_passes (h : a.intent = .new → ∃ n x, t.lowestAt (fun _ y => y.state = .free) n x) :
    a.checkRoom t = none := by
  cases hi : a.intent with
  | amend => simp [Assembly.checkRoom, hi]
  | new =>
    obtain ⟨n, x, hat⟩ := h hi
    simp [Assembly.checkRoom, hi, (lowestFree_some t n).2 ⟨x, hat⟩]

theorem checkRoom_fails (hi : a.intent = .new) (h : t.noSlot fun _ y => y.state = .free) :
    a.checkRoom t = some (.tableFull, .empty) := by
  simp [Assembly.checkRoom, hi, (lowestFree_none t).2 h]

/-- A record that is new returns no points (R38). -/
theorem returnedPoints_new (hi : a.intent = .new) : a.returnedPoints t = 0 := by
  simp [Assembly.returnedPoints, amendedSlot_new hi]

/-- An amendment returns the points of the pending image it replaces (R38). -/
theorem returnedPoints_amend (hi : a.intent = .amend) (h : t.lowestAt (viewHasKey a.key) n x) :
    a.returnedPoints t = imagePoints x.pendingImage := by
  simp [Assembly.returnedPoints, amendedSlot_amend hi h, slot_of_getElem? h.1]

theorem checkPool_fails {available : Nat} (hav : t.poolFree + a.returnedPoints t = available)
    (h : available < a.total) : a.checkPool t = some (.poolFull, .points a.total available) := by
  rw [Assembly.checkPool, hav, if_pos h]

theorem target_new (hi : a.intent = .new) (h : t.lowestAt (fun _ y => y.state = .free) n x) :
    a.target t = some n := by
  simp [Assembly.target, hi, (lowestFree_some t n).2 ⟨x, h⟩]

theorem target_amend (hi : a.intent = .amend) (h : t.lowestAt (viewHasKey a.key) n x) : a.target t = some n := by
  simp [Assembly.target, hi, (slotOfKey_some t a.key n).2 ⟨x, h⟩]

end

/-! ### The refusals -/

/-- CLOSER answers the first check that fails and changes nothing (R50). -/
theorem closer_refuses {s : State} (hs : s.takes (.closer (.exact ()))) (hm : s.mode.mode ≠ .config) {a : Assembly}
    (hopen : s.table.assembly = some a) {r : ResultCode} {p : AnswerPayload} (h : a.closeRefusal s = some (r, p)) :
    ∃ t, exec (.closer (.exact ())) s = .next t ∧ KeptBut [] s t ∧ Answered s t .closer r p := by
  have hact : actCloser () (s.admitted .closer) = { state := s.admitted .closer, result := r, payload := p } := by
    have hrefusal : a.closeRefusal (s.admitted .closer) = some (r, p) := h
    simp [actCloser, hopen, hrefusal]
  obtain ⟨t, hexec, hanswer, hkept⟩ := runCommand_answers_unchanged (owner := actCloser ()) hs rfl
    (decide_eq_true hm) hact
  exact ⟨t, hexec, hkept, hanswer⟩

theorem actCloser_noAssembly {s : State} (h : s.table.assembly = none) : actCloser () s = .refuse s .noAssembly := by
  simp [actCloser, h]

/-- Settles O34: the earlier checks pass, and so the first refusal is that of the check at hand. -/
theorem closerRefusesInOrder : Obligations.CloserRefusesInOrder := by
  refine ⟨fun s hs hm hnone => ?_, fun s a own keyOk hs hm hopen hnew hamend => ?_⟩
  · exact runCommand_answers_unchanged (owner := actCloser ()) hs rfl (decide_eq_true hm)
      (actCloser_noAssembly (s := s.admitted .closer) hnone)
  have hpassed : keyOk → a.checkKey s.table = none ∧ a.amendedSlot s.table = own := fun hk => by
    cases hi : a.intent with
    | new =>
      obtain ⟨rfl, hkey⟩ := hnew hi
      exact ⟨checkKey_new hi (hkey.1 hk), amendedSlot_new hi⟩
    | amend =>
      obtain ⟨hown, hkey⟩ := hamend hi
      obtain ⟨n, x, hat, hp, hf, hkind⟩ := hkey.1 hk
      exact ⟨(checkKey_amend hi hat).trans (checkAmended_passes hp hf hkind),
        (amendedSlot_amend hi hat).trans (hown n x hat).symm⟩
  refine ⟨fun hc => ?_, fun hc hfit => ?_, fun hc hfit hi n x hat => ?_, fun hc hfit hi hno => ?_,
    fun hc hfit hi n x hat => ⟨fun hp => ?_, fun hp hf => ?_, fun hp hf ⟨r, hv, hkind⟩ => ?_⟩,
    fun hc hfit hk n x hat => ?_, fun hc hfit hk hmarker hbehind => ?_,
    fun hc hfit hk hmarker hbehind n x hat => ?_, fun hc hfit hk hmarker hbehind hoverlap hi hno => ?_,
    fun hc hfit hk hmarker hbehind hoverlap hroom available hnewfree hamendfree hlt => ?_⟩
  · exact closer_refuses hs hm hopen (by rw [Assembly.closeRefusal, checkComplete_fails hc]; rfl)
  · obtain ⟨which, place, hcheck, hplace⟩ := checkProfiles_fails hfit
    obtain ⟨t, hexec, hkept, hanswer⟩ := closer_refuses hs hm hopen (r := .badProfile) (p := .profilePlace which place)
      (by rw [Assembly.closeRefusal, (checkComplete_none a).2 hc, hcheck]; rfl)
    exact ⟨t, which, place, hexec, hkept, hanswer, hplace⟩
  all_goals
    apply closer_refuses hs hm hopen
    rw [Assembly.closeRefusal, (checkComplete_none a).2 hc, (checkProfiles_none a).2 hfit]
  · rw [checkKey_inUse hi hat]; rfl
  · rw [checkKey_unknown hi hno]; rfl
  · rw [checkKey_amend hi hat, checkAmended_withdrawn hp]; rfl
  · rw [checkKey_amend hi hat, checkAmended_fading hp hf]; rfl
  · rw [checkKey_amend hi hat, checkAmended_otherKind hp hf hv hkind]; rfl
  -- From the marker on, the key check has passed, and the slot left out of the searches is the amended one.
  all_goals
    obtain ⟨hkey, hown⟩ := hpassed hk
    subst hown
    rw [hkey]
  · rw [checkMarker_fails hat]; rfl
  all_goals rw [checkMarker_passes hmarker]
  · rw [checkBehind_fails hbehind]; rfl
  all_goals rw [(checkBehind_none a s).2 hbehind]
  · rw [checkOverlap_fails hat]; rfl
  all_goals rw [checkOverlap_passes hoverlap]
  · rw [checkRoom_fails hi hno]; rfl
  · have hav : s.table.poolFree + a.returnedPoints s.table = available := by
      cases hi : a.intent with
      | new => rw [returnedPoints_new hi, hnewfree hi, Nat.add_zero]
      | amend =>
        obtain ⟨n, x, hat, _⟩ := (hamend hi).2.1 hk
        rw [returnedPoints_amend hi hat, hamendfree hi n x hat]
    rw [checkRoom_passes hroom, checkPool_fails hav hlt]; rfl

/-! ### The record staged -/

/-- POOL_LOW where the free count passes below 32 (R38). -/
theorem causesWhere_poolLow (before after : Nat) :
    causesWhere [(decide (poolLowMark ≤ before) && decide (after < poolLowMark), .poolLow)] =
      if 32 ≤ before ∧ after < 32 then [.poolLow] else [] := by
  rw [causesWhere_one]
  have hboth : (decide (poolLowMark ≤ before) && decide (after < poolLowMark)) = true ↔ 32 ≤ before ∧ after < 32 := by
    rw [Bool.and_eq_true, decide_eq_true_eq, decide_eq_true_eq]
    rfl
  exact ite_congr (propext hboth) (fun _ => rfl) fun _ => rfl

section
variable {s : State} {a : Assembly} {n : Nat}

theorem stageRecord_table {x : Slot} (hx : s.table.slots[n]? = some x) : (s.stageRecord a n).table =
    { s.table with
      slots := s.table.slots.set n
        { x with pending := .image a.record, overwritten := x.overwritten || x.pendingImage.isSome }
      poolFree := a.freeAfter s.table, assembly := none } := by
  simp [State.stageRecord, CurveTable.putSlot, Slot.stage, slot_of_getElem? hx]

theorem stageRecord_linkKept : LinkKept s (s.stageRecord a n) :=
  LinkKept.raiseIf (u := s.setTable _) (LinkKept.refl s) _ _

theorem stageRecord_keptBut : KeptBut [.table, .attention] s (s.stageRecord a n) :=
  ((KeptBut.refl _ s).setTable _ (by simp)).raiseIf _ _ (by simp)

theorem stageRecord_raised : Raised
    (if 32 ≤ s.table.poolFree ∧ a.freeAfter s.table < 32 then [.poolLow] else []) s (s.stageRecord a n) :=
  causesWhere_poolLow _ _ ▸ Raised.raiseIf (u := s.setTable _) (Raised.refl s) _ _

theorem actCloser_stages (hopen : s.table.assembly = some a) (h : a.closeRefusal s = none)
    (ht : a.target s.table = some n) : actCloser () s =
      { state := s.stageRecord a n, result := .done, payload := .staged n (a.freeAfter s.table) } := by
  simp [actCloser, hopen, h, ht]

end

/-- Settles O33: NEW and AMEND find their slot and what it returns by different searches, and are then staged alike. -/
theorem closerStagesTheRecord : Obligations.CloserStagesTheRecord := by
  intro s a n x own returned free hs hm hopen hc hfit hmarker hbehind hoverlap hintent hroom hfree
  obtain ⟨hkey, hown, hroomy, htarget, hx, hreturned⟩ : a.checkKey s.table = none ∧ a.amendedSlot s.table = own
      ∧ a.checkRoom s.table = none ∧ a.target s.table = some n ∧ s.table.slots[n]? = some x
      ∧ a.returnedPoints s.table = returned := by
    rcases hintent with ⟨hi, rfl, rfl, hno, hat⟩ | ⟨hi, rfl, hat, hp, hf, hkind, rfl⟩
    · exact ⟨checkKey_new hi hno, amendedSlot_new hi, checkRoom_passes fun _ => ⟨n, x, hat⟩, target_new hi hat, hat.1,
        returnedPoints_new hi⟩
    · exact ⟨(checkKey_amend hi hat).trans (checkAmended_passes hp hf hkind), amendedSlot_amend hi hat,
        checkRoom_passes fun hnew => (nomatch hnew.symm.trans hi), target_amend hi hat, hat.1,
        returnedPoints_amend hi hat⟩
  subst hown hreturned
  have hpool : a.checkPool s.table = none := if_neg (Nat.not_lt_of_le hroom)
  have hpasses : a.closeRefusal s = none := by
    rw [Assembly.closeRefusal, (checkComplete_none a).2 hc, (checkProfiles_none a).2 hfit, hkey,
      checkMarker_passes hmarker, (checkBehind_none a s).2 hbehind, checkOverlap_passes hoverlap, hroomy, hpool]
    rfl
  obtain rfl : free = a.freeAfter s.table := hfree
  exact runCommand_answers (owner := actCloser ())
    (Q := fun t => t.table = _ ∧ Raised _ s t) _ hs rfl (decide_eq_true hm)
    (actCloser_stages (s := s.admitted .closer) hopen hpasses htarget) stageRecord_linkKept stageRecord_keptBut
    ⟨stageRecord_table (s := s.admitted .closer) hx, stageRecord_raised.answer _ _⟩

end Sys2Proof.Machine
end

section
/-! PROOFS. WDRAW, WDSECT and CLRTAB. -/

namespace Sys2Proof.Machine

/-! ### What a withdrawal finds (R58) -/

section
variable {t : CurveTable} {n : Nat} {x : Slot} {force : Bool}

theorem judgeWithdraw_already (h : x.pending = .withdrawal ∨ x.state = .fading) :
    t.judgeWithdraw n x force = .already :=
  if_pos h

theorem judgeWithdraw_freed (h : x.state = .staged) : t.judgeWithdraw n x force = .freed := by
  obtain ⟨_, r, hp⟩ := Slot.pending_of_staged h
  rw [CurveTable.judgeWithdraw, if_neg (by simp [hp, h]), if_pos h]

theorem judgeWithdraw_inUse (hp : x.pending ≠ .withdrawal) (h : x.state = .active) :
    t.judgeWithdraw n x false = .inUse := by
  rw [CurveTable.judgeWithdraw, if_neg (by simp [hp, h]), if_neg (by simp [h]), if_pos ⟨h, rfl⟩]

/-- An ARMED slot, or an ACTIVE one under force, is judged by the clash of its live image. -/
theorem judgeWithdraw_published (hp : x.pending ≠ .withdrawal)
    (h : x.state = .armed ∨ x.state = .active ∧ force = true) :
    t.judgeWithdraw n x force = (t.withdrawClash n x).getD .pending := by
  rcases h with h | ⟨h, rfl⟩ <;> simp [CurveTable.judgeWithdraw, hp, h]

theorem withdrawClash_marker {r q : Record} {m : Nat} {y : Slot} (hp : x.pending = .image q) (hl : x.live = some r)
    (h : t.lowestAt (otherHasMarker (some n) r) m y) : t.withdrawClash n x = some (.markerClash m) := by
  simp [CurveTable.withdrawClash, Slot.pendingImage, hp, hl, (otherMarker_some t _ _ m).2 ⟨y, h⟩]

theorem withdrawClash_overlap {r q : Record} {m : Nat} {y : Slot} (hp : x.pending = .image q) (hl : x.live = some r)
    (hm : t.noSlot (otherHasMarker (some n) r)) (h : t.lowestAt (otherOverlaps (some n) r) m y) :
    t.withdrawClash n x = some (.overlapClash m) := by
  simp [CurveTable.withdrawClash, Slot.pendingImage, hp, hl, (otherMarker_none t _ _).2 hm,
    (otherOverlap_some t _ _ m).2 ⟨y, h⟩]

theorem withdrawClash_none (h : ∀ r q, x.pending = .image q → x.live = some r →
    t.noSlot (otherHasMarker (some n) r) ∧ t.noSlot (otherOverlaps (some n) r)) : t.withdrawClash n x = none := by
  cases hp : x.pending with
  | none => simp [CurveTable.withdrawClash, pendingImage_of_none hp]
  | withdrawal => simp [CurveTable.withdrawClash, pendingImage_of_withdrawal hp]
  | image q =>
    cases hl : x.live with
    | none => simp [CurveTable.withdrawClash, Slot.pendingImage, hp, hl]
    | some r =>
      obtain ⟨hm, ho⟩ := h r q hp hl
      simp [CurveTable.withdrawClash, Slot.pendingImage, hp, hl, (otherMarker_none t _ _).2 hm,
        (otherOverlap_none t _ _).2 ho]

end

/-! ### WDRAW -/

theorem applyFinding_eq {t : CurveTable} {n : Nat} {x : Slot} (h : t.slots[n]? = some x) (g : WithdrawFinding) :
    t.applyFinding n g =
      { t with slots := t.slots.set n (g.apply x), poolFree := t.poolFree + g.returned x } := by
  simp [CurveTable.applyFinding, CurveTable.putSlot, slot_of_getElem? h]

/-- A finding that leaves the slot and returns no points leaves the table. -/
theorem applyFinding_same {t : CurveTable} {n : Nat} {x : Slot} (h : t.slots[n]? = some x) {g : WithdrawFinding}
    (hslot : g.apply x = x) (hpoints : g.returned x = 0) : t.applyFinding n g = t := by
  obtain ⟨hn, rfl⟩ := List.getElem?_eq_some_iff.1 h
  rw [applyFinding_eq h, hslot, hpoints, List.set_getElem_self]
  rfl

section
variable {s : State} {key : Word} {force : Nat}

theorem actWdraw_badParam (h : 1 < force) : actWdraw { key := key, force := force } s = .refuse s .badParam :=
  if_pos h

theorem actWdraw_noSuchKey (hforce : force ≤ 1) (h : s.table.noSlot (viewHasKey key.toNat)) :
    actWdraw { key := key, force := force } s = .refuse s .noSuchKey := by
  simp [actWdraw, Nat.not_lt_of_le hforce, (slotOfKey_none s.table key.toNat).2 h]

theorem actWdraw_found (hforce : force ≤ 1) {n : Nat} {x : Slot} (h : s.table.lowestAt (viewHasKey key.toNat) n x)
    {g : WithdrawFinding} (hg : s.table.judgeWithdraw n x (force = 1) = g) :
    actWdraw { key := key, force := force } s =
      { state := s.setTable (s.table.applyFinding n g), result := (g.answer n).1, payload := (g.answer n).2 } := by
  simp [actWdraw, Nat.not_lt_of_le hforce, (slotOfKey_some s.table key.toNat n).2 ⟨x, h⟩, CurveTable.findWithdraw,
    slot_of_getElem? h.1, hg]

end

/-- Settles O35: each case is a finding, which WDRAW carries out on the slot and answers. -/
theorem wdrawFollowsItsCases : Obligations.WdrawFollowsItsCases := by
  rintro s key force i hs hm rfl
  have ha : CommandCode.wdraw.available s.mode.mode = true := decide_eq_true hm
  refine ⟨fun hforce => ?_, fun hforce hno => ?_, fun n x hforce hat => ?_⟩
  · exact runCommand_answers_unchanged (owner := actWdraw _) hs rfl ha (actWdraw_badParam hforce)
  · exact runCommand_answers_unchanged (owner := actWdraw _) hs rfl ha
      (actWdraw_noSuchKey (s := s.admitted .wdraw) hforce hno)
  have carries : ∀ {g}, s.table.judgeWithdraw n x (force = 1) = g → ∃ t,
      exec (.wdraw (.exact { key := key, force := force })) s = .next t
        ∧ Answered s t .wdraw (g.answer n).1 (g.answer n).2 ∧ KeptBut [.table] s t
        ∧ t.table = s.table.applyFinding n g := fun hg =>
    runCommand_sets_table (owner := actWdraw _) hs rfl ha (actWdraw_found (s := s.admitted .wdraw) hforce hat hg)
  have refuses : ∀ {g}, s.table.judgeWithdraw n x (force = 1) = g → g.apply x = x → g.returned x = 0 → ∃ t,
      exec (.wdraw (.exact { key := key, force := force })) s = .next t
        ∧ Answered s t .wdraw (g.answer n).1 (g.answer n).2 ∧ KeptBut [] s t := fun hg hslot hpoints => by
    obtain ⟨t, hexec, hanswer, hkept, htable⟩ := carries hg
    exact ⟨t, hexec, hanswer, hkept.of_table_eq (htable.trans (applyFinding_same hat.1 hslot hpoints))⟩
  refine ⟨fun h => ?_, fun h => ?_, fun hp h h0 => ?_, fun hp h => ?_⟩
  · exact refuses (judgeWithdraw_already h) rfl rfl
  · obtain ⟨t, hexec, hanswer, hkept, htable⟩ := carries (judgeWithdraw_freed h)
    have hpoints : WithdrawFinding.freed.returned x = imagePoints x.pendingImage := by
      simp [WithdrawFinding.returned, Slot.points, (Slot.pending_of_staged h).1, imagePoints]
    rw [applyFinding_eq hat.1, hpoints] at htable
    exact ⟨t, hexec, hanswer, hkept, htable⟩
  · subst h0
    exact refuses (judgeWithdraw_inUse hp h) rfl rfl
  · have hjudge : s.table.judgeWithdraw n x (force = 1) = (s.table.withdrawClash n x).getD .pending :=
      judgeWithdraw_published hp (h.imp id fun ⟨hs, hf⟩ => ⟨hs, decide_eq_true hf⟩)
    refine ⟨fun r q m y hi hl hmarker => ?_, fun r q m y hi hl hno hoverlap => ?_, fun hclear => ?_⟩
    · rw [withdrawClash_marker hi hl hmarker] at hjudge
      exact refuses hjudge rfl rfl
    · rw [withdrawClash_overlap hi hl hno hoverlap] at hjudge
      exact refuses hjudge rfl rfl
    · rw [withdrawClash_none hclear] at hjudge
      obtain ⟨t, hexec, hanswer, hkept, htable⟩ := carries hjudge
      rw [Option.getD_none, applyFinding_eq hat.1] at htable
      exact ⟨t, hexec, hanswer, hkept, htable⟩

/-! ### Findings carried out on every slot -/

section
variable {t : CurveTable} {fs : List (Option WithdrawFinding)}

theorem applySections_length (h : fs.length = t.slots.length) :
    (t.applySections fs).slots.length = t.slots.length := by
  simp [CurveTable.applySections, h]

/-- What the slots no longer hold, the pool takes back (R39). -/
theorem applySections_points (h : fs.length = t.slots.length) :
    (t.applySections fs).poolFree + heldPoints (t.applySections fs).slots = t.poolFree + heldPoints t.slots := by
  have := heldPoints_applySection t.slots fs h
  show t.poolFree + _ + heldPoints (List.zipWith applySection t.slots fs) = _
  omega

theorem applySections_getElem? {n : Nat} {x : Slot} {g : Option WithdrawFinding} (hx : t.slots[n]? = some x)
    (hg : fs[n]? = some g) : (t.applySections fs).slots[n]? = some (applySection x g) := by
  simp [CurveTable.applySections, List.getElem?_zipWith, hx, hg]

end

/-! ### WDSECT -/

section
variable {s : State} {f : SectionFields}

theorem actWdsect_badParam (h : 4095 < f.tag ∨ 4095 < f.mask ∨ 1 < f.force) : actWdsect f s = .refuse s .badParam :=
  if_pos h

theorem actWdsect_withdraws (htag : f.tag ≤ 4095) (hmask : f.mask ≤ 4095) (hforce : f.force ≤ 1) : actWdsect f s =
    { state := s.setTable (s.table.applySections (s.table.sectionFindings f)), result := .done,
      payload := sectionReport (s.table.sectionFindings f) } :=
  if_neg (by omega)

end

section
variable {f : SectionFields} {selected : Slot → Bool}
  (hsel : ∀ x, selected x = x.view.any fun r => r.sectionTag &&& f.mask = f.tag &&& f.mask) (t : CurveTable)
include hsel

/-- WDSECT judges a slot that it selects as WDRAW does, and no other (R60). -/
theorem sectionFinding_eq (n : Nat) (x : Slot) :
    t.sectionFinding f n x = if selected x then some (t.judgeWithdraw n x (f.force = 1)) else none := by
  unfold CurveTable.sectionFinding
  rw [hsel]
  cases x.view with
  | none => rfl
  | some r => rfl

theorem sectionFindings_getElem? {n : Nat} {x : Slot} (hx : t.slots[n]? = some x) :
    (t.sectionFindings f)[n]? =
      some (if selected x then some (t.judgeWithdraw n x (f.force = 1)) else none) := by
  rw [CurveTable.sectionFindings, mapFindings_getElem?, hx, Option.map_some, Nat.zero_add, sectionFinding_eq hsel]

/-- The findings of a kind are counted over the slots selected (R60). -/
theorem countFindings_sections (check : WithdrawFinding → Bool) : countFindings (t.sectionFindings f) check =
    t.slots.zipIdx.countP fun p => selected p.1 && check (t.judgeWithdraw p.2 p.1 (f.force = 1)) := by
  rw [CurveTable.sectionFindings, countFindings_mapFindings]
  refine List.countP_congr fun p _ => ?_
  rw [sectionFinding_eq hsel]
  cases selected p.1 <;> simp

end

theorem isWithdrawn_eq : WithdrawFinding.isWithdrawn = fun g => decide (g = .freed ∨ g = .pending) := by
  funext g
  cases g <;> rfl

/-! ### CLRTAB -/

section
variable {x : Slot}

theorem clearFinding_free (h : x.state = .free) : x.clearFinding = none := if_pos h

theorem clearFinding_staged (h : x.state = .staged) : x.clearFinding = some .freed := by
  obtain ⟨_, r, hp⟩ := Slot.pending_of_staged h
  simp [Slot.clearFinding, h, hp]

theorem clearFinding_fading (h : x.state = .fading) : x.clearFinding = some .already := by
  simp [Slot.clearFinding, h]

theorem clearFinding_withdrawn (h : x.state = .armed ∨ x.state = .active) (hp : x.pending = .withdrawal) :
    x.clearFinding = some .already := by
  rcases h with h | h <;> simp [Slot.clearFinding, h, hp]

theorem clearFinding_published (h : x.state = .armed ∨ x.state = .active) (hp : x.pending ≠ .withdrawal) :
    x.clearFinding = some .pending := by
  rcases h with h | h <;> simp [Slot.clearFinding, h, hp]

/-- What CLRTAB finds for a slot, by its state and whether a withdrawal is pending (R61). -/
theorem clearFinding_iff (x : Slot) : (x.clearFinding = some .freed ↔ x.state = .staged)
    ∧ (x.clearFinding = some .pending ↔ (x.state = .armed ∨ x.state = .active) ∧ x.pending ≠ .withdrawal)
    ∧ (x.clearFinding = some .already ↔
      x.state = .fading ∨ (x.state = .armed ∨ x.state = .active) ∧ x.pending = .withdrawal) := by
  cases h : x.state with
  | free => simp [clearFinding_free h]
  | staged => simp [clearFinding_staged h]
  | fading => simp [clearFinding_fading h]
  | armed | active =>
    by_cases hp : x.pending = .withdrawal
    · simp [clearFinding_withdrawn (by simp [h]) hp, hp]
    · simp [clearFinding_published (by simp [h]) hp, hp]

/-- The findings of a kind are counted over the slots that meet its condition. -/
theorem countFindings_clear (slots : List Slot) (g : WithdrawFinding) {p : Slot → Prop} [DecidablePred p]
    (h : ∀ x : Slot, x.clearFinding = some g ↔ p x) :
    countFindings (slots.map Slot.clearFinding) (fun k => k = g) = slots.countP fun x => p x := by
  rw [countFindings, List.countP_map]
  refine List.countP_congr fun x _ => ?_
  simp only [Function.comp_apply, decide_eq_true_eq, ← h]
  cases x.clearFinding <;> simp

end

/-- Settles O36: both rows carry out a finding on every slot; for WDSECT it is that of WDRAW for each slot selected. -/
theorem sectionsAndTableAreWithdrawn : Obligations.SectionsAndTableAreWithdrawn := by
  refine ⟨fun s f hs hm => ⟨fun hbad => ?_, fun selected htag hmask hforce hsel count hcount => ?_⟩, fun s hs hm => ?_⟩
  · exact runCommand_answers_unchanged (owner := actWdsect f) hs rfl (decide_eq_true hm) (actWdsect_badParam hbad)
  · obtain ⟨t, hexec, hanswer, hkept, htable⟩ := runCommand_sets_table (owner := actWdsect f) hs rfl
      (decide_eq_true hm) (actWdsect_withdraws (s := s.admitted .wdsect) htag hmask hforce)
    have hlen : (s.table.sectionFindings f).length = s.table.slots.length := mapFindings_length _ f s.table.slots 0
    have hcounts : ∀ check, countFindings (s.table.sectionFindings f) check = count check := fun check =>
      (countFindings_sections hsel s.table check).trans (hcount check).symm
    refine ⟨t, hexec, hkept, ?_, ?_, ?_, ?_, fun n x hx => ?_⟩
    · have hreport : sectionReport (s.table.sectionFindings f) = .sectionCounts
          (count fun g => g = .freed ∨ g = .pending) (count fun g => g = .inUse) (count WithdrawFinding.isClash)
          (count fun g => g = .already) := by
        simp only [sectionReport, hcounts, isWithdrawn_eq]
      exact hreport ▸ hanswer
    · rw [htable]; exact applySections_length hlen
    · rw [htable]; exact applySections_points hlen
    · rw [htable]; rfl
    · rw [htable]
      refine (applySections_getElem? hx (sectionFindings_getElem? hsel s.table hx)).trans ?_
      split <;> rfl
  · have ha : CommandCode.clrtab.available s.mode.mode = true := by rcases hm with hm | hm <;> rw [hm] <;> rfl
    obtain ⟨t, hexec, hanswer, hkept, htable⟩ := runCommand_sets_table (owner := actClrtab ()) hs rfl ha rfl
    have hlen : (s.table.slots.map Slot.clearFinding).length = s.table.slots.length := List.length_map _
    refine ⟨t, _, _, _, hexec, hkept, hanswer,
      countFindings_clear _ _ fun x => let ⟨hfreed, _, _⟩ := clearFinding_iff x; hfreed,
      countFindings_clear _ _ fun x => let ⟨_, hpending, _⟩ := clearFinding_iff x; hpending,
      countFindings_clear _ _ fun x => let ⟨_, _, halready⟩ := clearFinding_iff x; halready,
      ?_, ?_, ?_, fun n x hx => ?_⟩
    · rw [htable]; exact applySections_length hlen
    · rw [htable]; exact applySections_points hlen
    · rw [htable]; rfl
    · have hy : t.table.slots[n]? = some (applySection x x.clearFinding) := by
        rw [htable]
        exact applySections_getElem? hx (by simp [hx])
      refine ⟨_, hy, fun h => ?_, fun h => ?_, fun h => ?_, fun h hp => ?_, fun h hp => ?_⟩
      · rw [clearFinding_free h]; rfl
      · rw [clearFinding_staged h]; rfl
      · rw [clearFinding_fading h]; rfl
      · rw [clearFinding_withdrawn h hp]; rfl
      · rw [clearFinding_published h hp]; rfl

end Sys2Proof.Machine
end

section
/-! PROOFS. The Curve Table at a fence: the slot work row by row of the table of fence outcomes, and the horizon
check. -/

namespace Sys2Proof.Machine

/-! ### The rows of the table of fence outcomes -/

theorem mem_publishedExtents {old : Option Record} {r : Record} {e : Extent} :
    e ∈ publishedExtents old r ↔ e = r.extent ∨ ∃ o, old = some o ∧ e = o.extent := by
  cases old with
  | none => simp [publishedExtents]
  | some o => by_cases h : o.extent = r.extent <;> simp [publishedExtents, h]

theorem stampOnce_eq (old : Option Nat) (p : Nat) : stampOnce old p = if old = none then some p else old := by
  cases old <;> rfl

/-- A live image whose withdrawal is pending begins to fade (R75). -/
def FadeBegins (running : Prop) (test : Record → PositionTest) (r : Record) : Prop := test r = .inside ∧ running

/-- A FADING slot that is not behind drops one level (R76). -/
def FadeDrops (running : Prop) (level : Nat) : Prop := running ∧ 2 ≤ level

section
variable {x : Slot} {r : Record} {n p : Nat} {running : Prop} [Decidable running] {test : Record → PositionTest}

/-- A pending image is published, and retired at once where it is behind (R74, R78). -/
theorem fence_image (hp : x.pending = .image r) : x.fence (decide running) test p = {
    slot := if test r = .inside then x.publish r p .active (some p)
      else if test r = .behind then .freed else x.publish r p .armed none
    changed := true
    extents := publishedExtents x.live r
    returned := imagePoints x.live + if test r = .behind then r.points else 0
    retired := decide (test r = .behind)
    faded := false } := by
  cases ht : test r <;> simp [Slot.fence, Slot.publication, hp, ht]

theorem fence_withdrawal_fades (hp : x.pending = .withdrawal) (hl : x.live = some r)
    (h : FadeBegins running test r) : x.fence (decide running) test p =
      { SlotWork.kept { x with pending := .none, fade := some fullFade } with changed := true } := by
  obtain ⟨hin, hrun⟩ := h
  simp [Slot.fence, Slot.withdrawn, SlotWork.kept, hp, hl, hin, hrun]

theorem fence_withdrawal_frees (hp : x.pending = .withdrawal) (hl : x.live = some r)
    (h : ¬ FadeBegins running test r) : x.fence (decide running) test p = .freed r false false := by
  cases ht : test r with
  | inside =>
    have hrun : ¬ running := fun hrun => h ⟨ht, hrun⟩
    simp [Slot.fence, Slot.withdrawn, hp, hl, ht, hrun]
  | behind => simp [Slot.fence, Slot.withdrawn, hp, hl, ht]
  | clear => simp [Slot.fence, Slot.withdrawn, hp, hl, ht]

/-- A live image behind that awaits no withdrawal retires its slot, whether it fades or not (R76 to R78). -/
theorem fence_behind (hp : x.pending = .none) (hl : x.live = some r) (h : test r = .behind) :
    x.fence (decide running) test p = .freed r true false := by
  cases hf : x.fade <;> simp [Slot.fence, Slot.fadeStep, Slot.judge, hp, hl, hf, h]

/-- Off the place behind, a FADING slot drops a level or is freed, whether a car is within it or not (R76). -/
theorem fence_fading (hp : x.pending = .none) (hl : x.live = some r) (hf : x.fade = some n) (h : test r ≠ .behind) :
    x.fence (decide running) test p =
      if running && decide (1 < n) then .kept { x with fade := some (n - 1) } else .freed r false true := by
  cases ht : test r with
  | behind => exact absurd ht h
  | inside => simp only [Slot.fence, Slot.fadeStep, hp, hl, hf, ht]
  | clear => simp only [Slot.fence, Slot.fadeStep, hp, hl, hf, ht]

theorem fence_fading_drops (hp : x.pending = .none) (hl : x.live = some r) (hf : x.fade = some n)
    (h : test r ≠ .behind) (hdrop : FadeDrops running n) :
    x.fence (decide running) test p = .kept { x with fade := some (n - 1) } := by
  obtain ⟨hrun, hlevel⟩ := hdrop
  exact (fence_fading hp hl hf h).trans (if_pos (Bool.and_eq_true_iff.2 ⟨decide_eq_true hrun, decide_eq_true hlevel⟩))

theorem fence_fading_ends (hp : x.pending = .none) (hl : x.live = some r) (hf : x.fade = some n)
    (h : test r ≠ .behind) (hend : ¬ FadeDrops running n) :
    x.fence (decide running) test p = .freed r false true := by
  rw [fence_fading hp hl hf h, if_neg]
  intro hdrop
  obtain ⟨hrun, hlevel⟩ := Bool.and_eq_true_iff.1 hdrop
  exact hend ⟨of_decide_eq_true hrun, of_decide_eq_true hlevel⟩

theorem fence_live_inside (hp : x.pending = .none) (hl : x.live = some r) (hf : x.fade = none)
    (h : test r = .inside) : x.fence (decide running) test p =
      { SlotWork.kept { x with status := .active, activatedAt := stampOnce x.activatedAt p } with
        changed := decide (x.status ≠ .active) } := by
  simp only [Slot.fence, Slot.judge, hp, hl, hf, h]

theorem fence_live_clear (hp : x.pending = .none) (hl : x.live = some r) (hf : x.fade = none)
    (hin : test r ≠ .inside) (hpast : test r ≠ .behind) : x.fence (decide running) test p =
      { SlotWork.kept { x with status := .armed } with changed := decide (x.status ≠ .armed) } := by
  cases ht : test r with
  | inside => exact absurd ht hin
  | behind => exact absurd ht hpast
  | clear => simp only [Slot.fence, Slot.judge, hp, hl, hf, ht]

theorem fence_empty (hp : x.pending = .none) (hl : x.live = none) : x.fence (decide running) test p = .kept x := by
  simp only [Slot.fence, hp, hl]

end

/-! ### Which row a sound slot meets -/

/-- The rows of the table of fence outcomes. A sound slot that awaits its withdrawal does not fade. -/
inductive Slot.FenceRow (x : Slot) (running : Prop) (test : Record → PositionTest) : Prop
  | image (r : Record) (hp : x.pending = .image r)
  | fades (r : Record) (hp : x.pending = .withdrawal) (hl : x.live = some r) (hf : x.fade = none)
      (h : FadeBegins running test r)
  | frees (r : Record) (hp : x.pending = .withdrawal) (hl : x.live = some r) (h : ¬ FadeBegins running test r)
  | behind (r : Record) (hp : x.pending = .none) (hl : x.live = some r) (hpast : test r = .behind)
  | drops (r : Record) (n : Nat) (hp : x.pending = .none) (hl : x.live = some r) (hf : x.fade = some n)
      (hpast : test r ≠ .behind) (h : FadeDrops running n)
  | ends (r : Record) (n : Nat) (hp : x.pending = .none) (hl : x.live = some r) (hf : x.fade = some n)
      (hpast : test r ≠ .behind) (h : ¬ FadeDrops running n)
  | inside (r : Record) (hp : x.pending = .none) (hl : x.live = some r) (hf : x.fade = none)
      (hin : test r = .inside)
  | clear (r : Record) (hp : x.pending = .none) (hl : x.live = some r) (hf : x.fade = none)
      (hin : test r ≠ .inside) (hpast : test r ≠ .behind)
  | empty (hp : x.pending = .none) (hl : x.live = none)

section
variable {x : Slot} (hx : x.sound)
include hx

theorem fade_of_withdrawal (hp : x.pending = .withdrawal) : x.fade = none := by
  obtain ⟨_, hfading, _⟩ := hx
  cases hf : x.fade with
  | none => rfl
  | some n =>
    obtain ⟨_, hnone, _⟩ := hfading n hf
    rw [hp] at hnone
    exact nomatch hnone

theorem fenceRow (running : Prop) (test : Record → PositionTest) : x.FenceRow running test := by
  cases hp : x.pending with
  | image r => exact .image r hp
  | withdrawal =>
    obtain ⟨hwithdrawal, _, _⟩ := id hx
    obtain ⟨r, hl⟩ := Option.isSome_iff_exists.1 (hwithdrawal hp)
    by_cases h : FadeBegins running test r
    · exact .fades r hp hl (fade_of_withdrawal hx hp) h
    · exact .frees r hp hl h
  | none =>
    cases hl : x.live with
    | none => exact .empty hp hl
    | some r =>
      by_cases hpast : test r = .behind
      · exact .behind r hp hl hpast
      · cases hf : x.fade with
        | some n =>
          by_cases h : FadeDrops running n
          · exact .drops r n hp hl hf hpast h
          · exact .ends r n hp hl hf hpast h
        | none =>
          by_cases hin : test r = .inside
          · exact .inside r hp hl hf hin
          · exact .clear r hp hl hf hin hpast

end

/-! ### The reports of one slot -/

theorem freed_state_ne {x : Slot} {r : Record} (hl : x.live = some r) : Slot.freed.state ≠ x.state := fun h => by
  obtain ⟨hnone, _⟩ := Slot.empty_of_free h.symm
  rw [hl] at hnone
  exact nomatch hnone

section
variable {x : Slot} (hx : x.sound) (running : Prop) [Decidable running] (test : Record → PositionTest) (p : Nat)
include hx

/-- A fence marks a slot as changed where it publishes its image or gives it another state (R80). -/
theorem fence_changed : (x.fence (decide running) test p).changed =
    (x.pendingImage.isSome || decide ((x.fence (decide running) test p).slot.state ≠ x.state)) := by
  cases fenceRow hx running test with
  | image r hp => simp [fence_image hp, Slot.pendingImage, hp]
  | fades r hp hl hf h =>
    rw [fence_withdrawal_fades hp hl h]
    cases hs : x.status <;> simp [SlotWork.kept, Slot.state, hl, hf, hs]
  | frees r hp hl h => simp [fence_withdrawal_frees hp hl h, SlotWork.freed, freed_state_ne hl]
  | behind r hp hl hpast => simp [fence_behind hp hl hpast, SlotWork.freed, freed_state_ne hl]
  | drops r n hp hl hf hpast h =>
    simp [fence_fading_drops hp hl hf hpast h, SlotWork.kept, pendingImage_of_none hp, Slot.state, hl, hf]
  | ends r n hp hl hf hpast h => simp [fence_fading_ends hp hl hf hpast h, SlotWork.freed, freed_state_ne hl]
  | inside r hp hl hf hin =>
    rw [fence_live_inside hp hl hf hin, pendingImage_of_none hp]
    cases hs : x.status <;> simp [SlotWork.kept, Slot.state, hl, hf, hs]
  | clear r hp hl hf hin hpast =>
    rw [fence_live_clear hp hl hf hin hpast, pendingImage_of_none hp]
    cases hs : x.status <;> simp [SlotWork.kept, Slot.state, hl, hf, hs]
  | empty hp hl => simp [fence_empty hp hl, SlotWork.kept, pendingImage_of_none hp]

/-- The extents a fence hands on for a slot (R81). -/
theorem mem_fence_extents (e : Extent) : e ∈ (x.fence (decide running) test p).extents ↔
    (∃ r, x.pending = .image r ∧ (e = r.extent ∨ ∃ o, x.live = some o ∧ e = o.extent))
      ∨ (∃ r, x.pending = .withdrawal ∧ x.live = some r ∧ ¬ FadeBegins running test r ∧ e = r.extent)
      ∨ (∃ r, x.pending = .none ∧ x.live = some r ∧ test r = .behind ∧ e = r.extent)
      ∨ ∃ r n, x.pending = .none ∧ x.live = some r ∧ x.fade = some n ∧ ¬ FadeDrops running n ∧ e = r.extent := by
  cases fenceRow hx running test with
  | image r hp => simp [fence_image hp, hp, mem_publishedExtents]
  | fades r hp hl hf h => simp [fence_withdrawal_fades hp hl h, SlotWork.kept, hp, hl, h]
  | frees r hp hl h => simp [fence_withdrawal_frees hp hl h, SlotWork.freed, hp, hl, h]
  | behind r hp hl hpast =>
    rw [fence_behind hp hl hpast]
    cases x.fade <;> simp [SlotWork.freed, hp, hl, hpast]
  | drops r n hp hl hf hpast h => simp [fence_fading_drops hp hl hf hpast h, SlotWork.kept, hp, hl, hf, hpast, h]
  | ends r n hp hl hf hpast h => simp [fence_fading_ends hp hl hf hpast h, SlotWork.freed, hp, hl, hf, hpast, h]
  | inside r hp hl hf hin => simp [fence_live_inside hp hl hf hin, SlotWork.kept, hp, hl, hf, hin]
  | clear r hp hl hf hin hpast => simp [fence_live_clear hp hl hf hin hpast, SlotWork.kept, hp, hl, hf, hpast]
  | empty hp hl => simp [fence_empty hp hl, SlotWork.kept, hp, hl]

/-- A fence retires a slot whose image, once published, is behind, and that awaits no withdrawal (R78). -/
theorem fence_retired : (x.fence (decide running) test p).retired = true ↔
    ∃ r, test r = .behind ∧ (x.pending = .image r ∨ x.pending = .none ∧ x.live = some r) := by
  cases fenceRow hx running test with
  | image r hp => simp [fence_image hp, hp]
  | fades r hp hl hf h => simp [fence_withdrawal_fades hp hl h, SlotWork.kept, hp]
  | frees r hp hl h => simp [fence_withdrawal_frees hp hl h, SlotWork.freed, hp]
  | behind r hp hl hpast => simp [fence_behind hp hl hpast, SlotWork.freed, hp, hl, hpast]
  | drops r n hp hl hf hpast h => simp [fence_fading_drops hp hl hf hpast h, SlotWork.kept, hp, hl, hpast]
  | ends r n hp hl hf hpast h => simp [fence_fading_ends hp hl hf hpast h, SlotWork.freed, hp, hl, hpast]
  | inside r hp hl hf hin => simp [fence_live_inside hp hl hf hin, SlotWork.kept, hp, hl, hin]
  | clear r hp hl hf hin hpast => simp [fence_live_clear hp hl hf hin hpast, SlotWork.kept, hp, hl, hpast]
  | empty hp hl => simp [fence_empty hp hl, SlotWork.kept, hp, hl]

/-- A fence frees a FADING slot that is not behind at the end of fading or outside RUNNING (R76, R82). -/
theorem fence_faded : (x.fence (decide running) test p).faded = true ↔
    ∃ r n, x.pending = .none ∧ x.live = some r ∧ x.fade = some n ∧ test r ≠ .behind ∧ ¬ FadeDrops running n := by
  cases fenceRow hx running test with
  | image r hp => simp [fence_image hp, hp]
  | fades r hp hl hf h => simp [fence_withdrawal_fades hp hl h, SlotWork.kept, hp]
  | frees r hp hl h => simp [fence_withdrawal_frees hp hl h, SlotWork.freed, hp]
  | behind r hp hl hpast => simp [fence_behind hp hl hpast, SlotWork.freed, hl, hpast]
  | drops r n hp hl hf hpast h => simp [fence_fading_drops hp hl hf hpast h, SlotWork.kept, hl, hf, h]
  | ends r n hp hl hf hpast h => simp [fence_fading_ends hp hl hf hpast h, SlotWork.freed, hp, hl, hf, hpast, h]
  | inside r hp hl hf hin => simp [fence_live_inside hp hl hf hin, SlotWork.kept, hf]
  | clear r hp hl hf hin hpast => simp [fence_live_clear hp hl hf hin hpast, SlotWork.kept, hf]
  | empty hp hl => simp [fence_empty hp hl, SlotWork.kept, hl]

end

/-! ### The table after a fence -/

/-- The position test of a state at a lead position (R73). -/
def State.testAt (s : State) (lead : Nat) : Record → PositionTest :=
  Machine.positionTest s.position.travel (s.carPositions lead) (s.rearPosition lead)

theorem testAt_inside_iff {s : State} {lead : Nat} {r : Record} : s.testAt lead r = .inside ↔ s.carIn lead r :=
  let ⟨hinside, _, _⟩ := positionTest_iff s lead r; hinside

theorem testAt_behind_iff {s : State} {lead : Nat} {r : Record} : s.testAt lead r = .behind ↔ s.allPast lead r :=
  let ⟨_, hbehind, _⟩ := positionTest_iff s lead r; hbehind

/-- What a fence taken now makes of a slot. -/
def State.workOf (s : State) (x : Slot) : SlotWork :=
  x.fence (decide (s.mode.mode = .running)) (s.testAt (s.position.rp / 256)) (s.position.rp / 256)

section
variable (s : State)

theorem fenceSnapshot_slotWorks : s.fenceSnapshot.slotWorks = s.table.slots.map s.workOf := slotWorks_eq s _ rfl

theorem takeFence_slots : s.takeFence.table.slots = s.table.slots.map fun x => (s.workOf x).slot := by
  rw [takeFence_table, fenceSnapshot_slotWorks]
  exact List.map_map

theorem takeFence_bitmap : s.takeFence.table.bitmap =
    List.zipWith (fun b x => b || (s.workOf x).changed) s.table.bitmap s.table.slots := by
  rw [takeFence_table, fenceSnapshot_slotWorks]
  exact List.zipWith_map_right

theorem takeFence_changedExtents :
    s.takeFence.table.changedExtents = s.table.slots.flatMap fun x => (s.workOf x).extents := by
  rw [takeFence_table, fenceSnapshot_slotWorks]
  exact List.flatMap_map ..

/-- A fence returns to the pool the points that the slots no longer hold (R39). -/
theorem takeFence_poolFree : s.takeFence.table.poolFree + heldPoints s.takeFence.table.slots =
    s.table.poolFree + heldPoints s.table.slots := by
  rw [takeFence_table, fenceSnapshot_slotWorks]
  have := heldPoints_works s.workOf (fun x => points_fence x _ _ _) s.table.slots
  simp only [CurveTable.judgeHorizon, CurveTable.afterWork]
  omega

theorem takeFence_isSet_retired : s.takeFence.link.isSet .retired = true ↔
    s.link.isSet .retired = true ∨ ∃ x ∈ s.table.slots, (s.workOf x).retired = true := by
  simp [takeFence_link, isSet_raiseIf, fenceSnapshot_slotWorks]

theorem takeFence_isSet_fadeDone : s.takeFence.link.isSet .fadeDone = true ↔
    s.link.isSet .fadeDone = true ∨ ∃ x ∈ s.table.slots, (s.workOf x).faded = true := by
  simp [takeFence_link, isSet_raiseIf, fenceSnapshot_slotWorks]

theorem takeFence_isSet_horizonShort : s.takeFence.link.isSet .horizonShort = true ↔
    s.link.isSet .horizonShort = true ∨ s.takeFence.table.horizonShort = true ∧ s.table.horizonShort = false := by
  simp [takeFence_link, isSet_raiseIf]

end

/-- The bitmap entry of a sound slot after a fence (R80). -/
theorem takeFence_bitmap_getElem? {s : State} {n : Nat} {x : Slot} {b : Bool} (hx : s.table.slots[n]? = some x)
    (hsound : x.sound) (hb : s.table.bitmap[n]? = some b) : s.takeFence.table.bitmap[n]? =
      some (b || x.pendingImage.isSome || decide ((s.workOf x).slot.state ≠ x.state)) := by
  rw [takeFence_bitmap, List.getElem?_zipWith, hb, hx, Bool.or_assoc]
  exact congrArg (fun c => some (b || c)) (fence_changed hsound _ _ _)

/-- Settles O50: each row from its equation for `Slot.fence`, and the reports from those of each slot. -/
theorem fenceWorksEverySlot : Obligations.FenceWorksEverySlot := by
  intro s lead running hr hrun hbitmap hsound hlead hrunning
  subst hlead
  obtain rfl := propext hrunning
  simp only [← testAt_inside_iff, ← testAt_behind_iff]
  refine ⟨_, exec_fence hr hrun, ?_, ?_, takeFence_poolFree s, rfl, rfl, rfl, fun n x hx => ?_, fun e => ?_, ?_, ?_⟩
  · rw [takeFence_slots, List.length_map]
  · rw [takeFence_bitmap, List.length_zipWith, hbitmap, Nat.min_self]
  · refine ⟨(s.workOf x).slot, by simp [takeFence_slots, hx], fun r hp => ?_, fun r hp hl => ?_,
      fun r n hp hl hf => ?_, fun r hp hl hf => ?_, fun hl hp => ?_,
      fun b hb => takeFence_bitmap_getElem? hx (hsound x (List.mem_of_getElem? hx)) hb⟩
    · rw [State.workOf, fence_image hp]
      exact ⟨fun h => if_pos h, fun h => by rw [if_neg (by rw [h]; nofun), if_pos h],
        fun hin hpast => by rw [if_neg hin, if_neg hpast]; rfl⟩
    · exact ⟨fun h => congrArg SlotWork.slot (fence_withdrawal_fades hp hl h),
        fun h => congrArg SlotWork.slot (fence_withdrawal_frees hp hl h)⟩
    · exact ⟨fun h => congrArg SlotWork.slot (fence_behind hp hl h),
        fun h hdrop => congrArg SlotWork.slot (fence_fading_drops hp hl hf h hdrop),
        fun h hend => congrArg SlotWork.slot (fence_fading_ends hp hl hf h hend)⟩
    · rw [← stampOnce_eq]
      exact ⟨fun h => congrArg SlotWork.slot (fence_live_inside hp hl hf h),
        fun h => congrArg SlotWork.slot (fence_behind hp hl h),
        fun hin hpast => congrArg SlotWork.slot (fence_live_clear hp hl hf hin hpast)⟩
    · exact congrArg SlotWork.slot (fence_empty hp hl)
  · rw [takeFence_changedExtents, List.mem_flatMap]
    exact exists_congr fun x => and_congr_right fun hx => mem_fence_extents (hsound x hx) _ _ _ e
  · rw [takeFence_isSet_retired]
    exact or_congr_right (exists_congr fun x => and_congr_right fun hx => fence_retired (hsound x hx) _ _ _)
  · rw [takeFence_isSet_fadeDone]
    exact or_congr_right (exists_congr fun x => and_congr_right fun hx => fence_faded (hsound x hx) _ _ _)

/-! ### The reach and the horizon -/

/-- The horizon is short where a setting is in force and the distance to the reach, if there is one, is below it
(R84). -/
theorem isShort_iff (t : CurveTable) (travel : TravelSense) (lead : Nat) : t.isShort travel lead = true ↔
    t.horizonSetting ≠ 0 ∧ ∀ reach, t.reachNow travel = some reach →
      (if travel = .ascending then (reach : Int) - (lead : Int) else (lead : Int) - reach)
        < ((t.horizonSetting * 100 : Nat) : Int) := by
  unfold CurveTable.isShort
  cases t.reachNow travel with
  | none => simp [horizonShortOf]
  | some reach => cases travel <;> simp [horizonShortOf, horizonDistance]

/-- After a fence the view is the live images: the reach is formed over these and the coverage position (R83). -/
theorem takeFence_reachPlace (s : State) (travel : TravelSense) (p : Nat) :
    s.takeFence.table.reachPlace travel p ↔ s.table.coverage = some p
      ∨ ∃ x ∈ s.takeFence.table.slots, ∃ r, x.live = some r ∧ p = if travel = .ascending then r.e3 else r.e0 := by
  refine or_congr_right (exists_congr fun y => and_congr_right fun hy => ?_)
  rw [takeFence_slots] at hy
  obtain ⟨x, _, rfl⟩ := List.mem_map.1 hy
  have hview : (s.workOf x).slot.view = (s.workOf x).slot.live :=
    view_of_pendingImage_none (fence_leaves _ _ x _).pendingImage_none
  rw [hview]

/-- Settles O51: the reach is the farthest of its places, and the mark and the cause follow from it. -/
theorem fenceChecksTheHorizon : Obligations.FenceChecksTheHorizon := by
  intro s hr hrun _
  obtain ⟨hnone, hsome⟩ : isFarthest s.position.travel (s.takeFence.table.reachPlace s.position.travel)
      s.takeFence.table.reach := reachNow_spec s.takeFence.table s.position.travel
  simp only [takeFence_reachPlace] at hnone hsome
  refine ⟨_, exec_fence hr hrun, ?_, fun reach hreach => ?_, isShort_iff s.takeFence.table _ _,
    takeFence_isSet_horizonShort s⟩
  · rw [hnone]
    constructor
    · intro h
      exact ⟨Option.eq_none_iff_forall_ne_some.2 fun p hp => h p (Or.inl hp),
        fun x hx => Option.eq_none_iff_forall_ne_some.2 fun r hl => h _ (Or.inr ⟨x, hx, r, hl, rfl⟩)⟩
    · rintro ⟨hcover, hlive⟩ p (hp | ⟨x, hx, r, hl, _⟩)
      · rw [hcover] at hp; exact nomatch hp
      · rw [hlive x hx] at hl; exact nomatch hl
  · obtain ⟨hplace, hfar⟩ := hsome reach hreach
    refine ⟨hplace, fun c hc => hfar c (Or.inl hc), fun x hx r hl => ?_⟩
    have hend := hfar _ (Or.inr ⟨x, hx, r, hl, rfl⟩)
    by_cases ht : s.position.travel = .ascending
    · simpa only [if_pos ht] using hend
    · simpa only [if_neg ht] using hend

end Sys2Proof.Machine
end

section
/-! SUPPORT. What the payloads of SETCOMP and LDPLAN that pass their checks hold, and which refusal the first check that
fails answers (R86, R87, R134, R135). -/

namespace Sys2Proof.Machine

/-! ### The checks of a composition -/

/-- A check that precedes the others passes, and they do. -/
theorem ite_error_eq_ok {p : Prop} [Decidable p] {ε α : Type} {e : ε} {x : Except ε α} {a : α} :
    (if p then .error e else x) = .ok a ↔ ¬ p ∧ x = .ok a := by
  by_cases hp : p <;> simp [hp]

section
variable {c : Composition}

theorem addresses_fit_iff : firstIndex (fun car : Car => car.address = 0 || car.address > 126) 1 c.cars = none ↔
    ∀ car ∈ c.cars, 1 ≤ car.address ∧ car.address ≤ 126 := by
  rw [firstIndex_none]
  refine forall₂_congr fun car _ => ?_
  simp only [Bool.or_eq_false_iff, decide_eq_false_iff_not]
  omega

theorem addresses_differ_iff :
    firstRepeat [] 1 c.cars = none ↔ c.cars.Pairwise fun a b => a.address ≠ b.address := by
  simp [firstRepeat_none]

/-- Each car lies behind the one before it where each lies behind every earlier one (R86, ORDER). -/
theorem offsets_rise_iff : firstDisorder none 1 c.cars = none ↔ c.cars.Pairwise fun a b => a.offset < b.offset := by
  rw [firstDisorder_none, List.pairwise_iff_getElem]
  constructor
  · rintro ⟨_, hnext⟩ i j hi hj hij
    induction hij with
    | refl => exact hnext i _ _ (List.getElem?_eq_getElem hi) (List.getElem?_eq_getElem hj)
    | @step m _ ih =>
      have hm : m < c.cars.length := Nat.lt_of_succ_lt hj
      exact Nat.lt_trans (ih hm) (hnext m _ _ (List.getElem?_eq_getElem hm) (List.getElem?_eq_getElem hj))
  · intro h
    refine ⟨nofun, fun i x y hx hy => ?_⟩
    obtain ⟨hi, rfl⟩ := List.getElem?_eq_some_iff.1 hx
    obtain ⟨hj, rfl⟩ := List.getElem?_eq_some_iff.1 hy
    exact h i (i + 1) hi hj (Nat.lt_succ_self i)

/-- Where the offsets rise, the train is long enough for every car where it is for the last (R86, TRAIN_LENGTH). -/
theorem not_badLength_iff (h : c.cars.Pairwise fun a b => a.offset < b.offset) :
    ¬ c.badLength ↔ (∀ car ∈ c.cars, car.offset ≤ c.length) ∧ c.length ≤ 60000 := by
  unfold Composition.badLength
  rw [not_or, Nat.not_lt]
  refine and_congr_left fun _ => ⟨fun hlast car hcar => ?_, ?_⟩
  · have hlast? := List.getLast?_eq_some_getLast (List.ne_nil_of_mem hcar)
    obtain ⟨front, hl⟩ := List.getLast?_eq_some_iff.1 hlast?
    have hend := Nat.not_lt.1 fun hlt => hlast ⟨_, hlast?, hlt⟩
    rw [hl] at h hcar
    obtain ⟨_, _, hbefore⟩ := List.pairwise_append.1 h
    rcases List.mem_append.1 hcar with hfront | hcar
    · exact Nat.le_trans (Nat.le_of_lt (hbefore car hfront _ (List.mem_singleton_self _))) hend
    · rwa [List.mem_singleton.1 hcar]
  · rintro hall ⟨car, hcar, hlt⟩
    exact absurd (hall car (List.mem_of_getLast? hcar)) (Nat.not_le.2 hlt)

/-- A composition of 1 to 16 cars that passes the checks from the cars on is one that the part may hold (R86, R87). -/
theorem checkComposition_eq_ok {d : Composition} (h1 : 1 ≤ c.cars.length) (h16 : c.cars.length ≤ 16) :
    checkComposition c = .ok d ↔ c.sound ∧ c = d := by
  unfold checkComposition Composition.sound
  rw [← addresses_fit_iff, ← addresses_differ_iff, ← offsets_rise_iff]
  cases ha : firstIndex (fun car : Car => car.address = 0 || car.address > 126) 1 c.cars with
  | some k => simp
  | none =>
    cases hr : firstRepeat [] 1 c.cars with
    | some k => simp
    | none =>
      cases ho : firstDisorder none 1 c.cars with
      | some k => simp
      | none =>
        have hlength := not_badLength_iff (offsets_rise_iff.1 ho)
        rw [badLength_iff c h1] at hlength
        simp only [ite_error_eq_ok, hlength, Except.ok.injEq, gt_iff_lt, Nat.not_lt]
        constructor
        · rintro ⟨⟨hoffset, htop⟩, hreader, hd⟩
          exact ⟨⟨h1, h16, trivial, trivial, trivial, hoffset, htop, hreader⟩, hd⟩
        · rintro ⟨⟨_, _, _, _, _, hoffset, htop, hreader⟩, hd⟩
          exact ⟨⟨hoffset, htop⟩, hreader, hd⟩

end

/-! ### The refusals of SETCOMP in their order -/

section
variable {c : Composition} {k : Nat}

theorem checkComposition_address (h : isLowest c.badAddress k) : checkComposition c = .error (.address, k) := by
  simp only [checkComposition, badAddress_some c k h]

variable (haddress : ∀ k, 1 ≤ k → ¬ c.badAddress k)
include haddress

theorem checkComposition_duplicate (h : isLowest c.repeatsAddress k) :
    checkComposition c = .error (.duplicate, k) := by
  simp only [checkComposition, (badAddress_none c).1 haddress, repeatsAddress_some c k h]

variable (hrepeat : ∀ k, 1 ≤ k → ¬ c.repeatsAddress k)
include hrepeat

theorem checkComposition_order (h : isLowest c.outOfOrder k) : checkComposition c = .error (.order, k) := by
  simp only [checkComposition, (badAddress_none c).1 haddress, (repeatsAddress_none c).1 hrepeat,
    outOfOrder_some c k h]

variable (horder : ∀ k, 1 ≤ k → ¬ c.outOfOrder k) (hcars : 1 ≤ c.cars.length)
include horder hcars

theorem checkComposition_trainLength (h : c.badLength) : checkComposition c = .error (.trainLength, 0) := by
  simp only [checkComposition, (badAddress_none c).1 haddress, (repeatsAddress_none c).1 hrepeat,
    (outOfOrder_none c).1 horder, (badLength_iff c hcars).1 h, if_true]

theorem checkComposition_reader (hlength : ¬ c.badLength) (h : c.length < c.reader) :
    checkComposition c = .error (.reader, 0) := by
  rw [badLength_iff c hcars] at hlength
  simp only [checkComposition, (badAddress_none c).1 haddress, (repeatsAddress_none c).1 hrepeat,
    (outOfOrder_none c).1 horder, if_neg hlength, if_pos h]

end

/-! ### The payload of SETCOMP -/

theorem parseComposition_wrongLength {n : Byte} {rest : List Byte} (h : rest.length + 1 ≠ 5 + 3 * n.toNat) :
    parseComposition (n :: rest) = .error (.lengthOfPayload, 0) := if_pos h

section
variable {c : Composition} (hfits : c.fitsPayload)
include hfits

theorem parseComposition_count (h : c.cars.length = 0 ∨ 16 < c.cars.length) :
    parseComposition c.bytes = .error (.count, 0) :=
  (parseComposition_bytes c hfits).trans (if_pos (by simpa using h))

theorem parseComposition_checks (h1 : 1 ≤ c.cars.length) (h16 : c.cars.length ≤ 16) :
    parseComposition c.bytes = checkComposition c :=
  (parseComposition_bytes c hfits).trans
    (if_neg (by simp only [Bool.or_eq_true, decide_eq_true_eq]; omega))

end

theorem parseCars_length : ∀ (n : Nat) (bytes : List Byte), (parseCars n bytes).length = n
  | 0, _ => rfl
  | n + 1, bytes => congrArg (· + 1) (parseCars_length n (bytes.drop 3))

/-- SETCOMP takes no payload whose composition the part may not hold (R86, R87). -/
theorem parseComposition_sound {payload : List Byte} {c : Composition} (h : parseComposition payload = .ok c) :
    c.sound := by
  cases payload with
  | nil => exact nomatch h
  | cons count rest =>
    simp only [parseComposition, ite_error_eq_ok, Bool.or_eq_true, decide_eq_true_eq, not_or, Nat.not_lt,
      gt_iff_lt] at h
    obtain ⟨_, ⟨hzero, h16⟩, hcheck⟩ := h
    obtain ⟨hsound, rfl⟩ := (checkComposition_eq_ok
      ((parseCars_length _ rest).symm ▸ Nat.pos_of_ne_zero hzero) ((parseCars_length _ rest).symm ▸ h16)).1 hcheck
    exact hsound

/-! ### The payload of LDPLAN -/

theorem parseEntries_length : ∀ (n : Nat) (bytes : List Byte), (parseEntries n bytes).length = n
  | 0, _ => rfl
  | n + 1, bytes => congrArg (· + 1) (parseEntries_length n (bytes.drop 2))

/-- LDPLAN takes no payload whose plan does not fit the composition (R133 to R135). -/
theorem parsePlan_fits {cars : Nat} {payload : List Byte} {plan : List PlanEntry}
    (h : parsePlan cars payload = .ok plan) : planFits cars plan := by
  cases payload with
  | nil => exact nomatch h
  | cons count rest =>
    simp only [parsePlan, ite_error_eq_ok, Nat.not_lt, gt_iff_lt] at h
    obtain ⟨_, hcount, h⟩ := h
    split at h
    · exact nomatch h
    · rename_i hcars
      split at h
      · exact nomatch h
      · rename_i hspans
        cases h
        refine ⟨(parseEntries_length _ rest).symm ▸ hcount, fun e he => ?_⟩
        have hcar := (firstIndex_none _ _ _).1 hcars e he
        have hspan := (firstIndex_none _ _ _).1 hspans e he
        simp only [Bool.or_eq_false_iff, decide_eq_false_iff_not] at hcar hspan
        omega

end Sys2Proof.Machine
end

section
/-! PROOFS. Every step keeps the composition, the limit settings, the reply timeout and both plans in their ranges. -/

namespace Sys2Proof.Machine

/-! ### The parameters of SETLIM -/

theorem limitsOk_iff (f : LimitFields) : limitsOk f = true ↔ (limitsOf f).sound := by
  simp [limitsOk, limitsOf, Limits.sound, and_assoc]

/-! ### The changes that keep the settings sound -/

/-- A plan of no entries fits every composition. -/
theorem planFits_nil (cars : Nat) : planFits cars [] := ⟨Nat.zero_le _, nofun⟩

section
variable {u : State} (h : u.settingsSound)
include h

/-- A Poll Engine of the same reply timeout, whose plans fit the composition. -/
theorem settingsSound_setPoll {x : PollEngine} (htimeout : x.replyTimeout = u.poll.replyTimeout)
    (hactive : planFits u.demand.carCount x.active)
    (hstandby : ∀ plan, x.standby = some plan → planFits u.demand.carCount plan) : (u.setPoll x).settingsSound := by
  obtain ⟨hcomposition, hlimits, hrange, _, _⟩ := h
  exact ⟨hcomposition, hlimits, htimeout ▸ hrange, hactive, hstandby⟩

theorem setlim_settingsSound {l : Limits} (hl : l.sound) :
    (u.setDemand { u.demand with limits := l }).settingsSound := by
  obtain ⟨hcomposition, _, hrest⟩ := h
  exact ⟨hcomposition, hl, hrest⟩

theorem setbus_settingsSound {n : Nat} (hn : 100 ≤ n ∧ n ≤ 800 ∧ n % 100 = 0) :
    (u.setPoll { u.poll with replyTimeout := n }).settingsSound := by
  obtain ⟨hcomposition, hlimits, _, hplans⟩ := h
  exact ⟨hcomposition, hlimits, hn, hplans⟩

/-- SETCOMP leaves no plan that was made for the composition before it (R88). -/
theorem compose_settingsSound {c : Composition} (hc : c.sound) : (u.compose c).settingsSound := by
  obtain ⟨_, hlimits, htimeout, _, _⟩ := h
  exact ⟨fun d hd => Option.some.inj hd ▸ hc, hlimits, htimeout, planFits_nil _, nofun⟩

/-- A software reset keeps the composition and the settings, and empties both plans (R96, R117, R132, R149). -/
theorem softReset_settingsSound : u.softReset.settingsSound := by
  obtain ⟨hcomposition, hlimits, htimeout, _, _⟩ := h
  exact ⟨hcomposition, hlimits, htimeout, planFits_nil _, nofun⟩

theorem checkInterval_settingsSound : u.checkInterval.settingsSound := by
  unfold State.checkInterval
  split <;> exact h

theorem checkHold_settingsSound : u.checkHold.settingsSound := by
  unfold State.checkHold
  split <;> exact h

theorem judgeFix_settingsSound (i : Nat) (e : Int) : (u.judgeFix i e).settingsSound := by
  unfold State.judgeFix
  split <;> exact h

theorem takeMessage_settingsSound (m : MarkerReception) : (u.takeMessage m).settingsSound := by
  unfold State.takeMessage
  split
  · split
    · exact h
    · split
      · exact h
      · refine judgeFix_settingsSound ?_ _ _
        exact h
  · exact h

theorem markerByte_settingsSound (b : Byte) (ok : Bool) : (u.markerByte b ok).settingsSound := by
  unfold State.markerByte
  split
  · split <;> exact h
  · split
    · exact takeMessage_settingsSound h _
    · exact h

/-- The standby plan that a fence makes the active one fits the same composition (R137). -/
theorem takeFence_settingsSound : u.takeFence.settingsSound := by
  obtain ⟨hcomposition, hlimits, htimeout, hactive, hstandby⟩ := h
  refine ⟨hcomposition, hlimits, htimeout, ?_, nofun⟩
  change planFits u.demand.carCount (u.poll.standby.getD u.poll.active)
  cases hs : u.poll.standby with
  | none => exact hactive
  | some plan => exact hstandby plan hs

/-- The output state of one car index is no setting. -/
theorem putCar_settingsSound (k : Nat) (f : CarOutput → CarOutput) :
    (u.setDemand (u.demand.putCar k f)).settingsSound := by
  unfold DemandUnit.putCar
  split <;> exact h

theorem takeOutcome_settingsSound (e : Exchange) (o : ExchangeOutcome) (r : Option Reply) :
    (u.takeOutcome e o r).settingsSound := by
  have hended : (u.setPoll (u.poll.endExchange e)).settingsSound := h
  have hstored := putCar_settingsSound (u := (u.setPoll (u.poll.endExchange e)).countOutcome e.car o) hended e.car
    fun c => c.settle e.kind r
  unfold State.takeOutcome State.applyOutcome
  simp only
  split
  · exact hended
  · split
    · exact hstored
    · exact hstored

end

/-- Every change of state that a row can make keeps the settings sound. -/
theorem keeps_settingsSound : Keeps State.settingsSound where
  start u h _ := by unfold actStart; split <;> exact h
  run u h _ := by unfold actRun; split <;> exact h
  stby u h _ := by unfold actStby; split <;> exact h
  hold u d h _ := by unfold actHold; split <;> exact h
  stop u h _ := by unfold actStop; split <;> exact h
  reset u h := h
  setcal u n h := by unfold actSetcal; split <;> exact h
  setpos u p h := h
  setfix u f h := by
    unfold actSetfix
    split
    · exact h
    · exact checkInterval_settingsSound (u := u.setPosition _) h
  openr u f h _ := by unfold actOpenr; split <;> exact h
  putp u vs h _ := by unfold actWrite; split; exact h; split <;> exact h
  contp u vs h _ := by unfold actWrite; split; exact h; split <;> exact h
  closer u h _ := by unfold actCloser; split; exact h; split <;> exact h
  abandr u h _ := by unfold actAbandr; split <;> exact h
  wdraw u f h _ := by unfold actWdraw; split; exact h; split <;> exact h
  wdsect u f h _ := by unfold actWdsect; split <;> exact h
  clrtab u h _ := h
  rdrec u f h := by unfold actRdrec State.readSlot; split; exact h; split; exact h; split <;> exact h
  rdslot u f h := by unfold actRdslot State.readSlot; split; exact h; split; exact h; split <;> exact h
  tsum u h := h
  cover u p h _ := by unfold actCover; split <;> exact h
  setcyc u f h := by unfold actSetcyc; split <;> exact h
  setcomp u p h _ := by
    unfold actSetcomp
    split
    · exact h
    · exact compose_settingsSound h (parseComposition_sound (by assumption))
  settrav u f h _ := by unfold actSettrav; split <;> exact h
  setlim u f h _ := by
    unfold actSetlim
    split
    · exact setlim_settingsSound h ((limitsOk_iff f).1 (by assumption))
    · exact h
  setbus u n h := by
    unfold actSetbus
    split
    · exact setbus_settingsSound h (of_decide_eq_true (by assumption))
    · split <;> exact h
  ldplan u p h := by
    unfold actLdplan
    split
    · exact h
    · rename_i plan hplan
      obtain ⟨_, _, _, hactive, _⟩ := id h
      exact settingsSound_setPoll h rfl hactive fun _ hs => Option.some.inj hs ▸ parsePlan_fits hplan
  canplan u h := by
    unfold actCanplan
    split
    · exact h
    · obtain ⟨_, _, _, _, hstandby⟩ := id h
      exact settingsSound_setPoll h rfl (planFits_nil _) hstandby
  canstby u h := by
    unfold actCanstby
    split
    · exact h
    · obtain ⟨_, _, _, hactive, _⟩ := id h
      exact settingsSound_setPoll h rfl hactive nofun
  xchg u k h _ := by unfold actXchg; split; exact h; exact h; split <;> exact h
  canxchg u h := by unfold actCanxchg; split <;> exact h
  rdxchg u h := by unfold actRdxchg; split <;> exact h
  restore u k h _ := by unfold actRestore; split; exact h; split <;> exact h
  pulse u d h := checkHold_settingsSound (checkInterval_settingsSound (u := u.movePulse d) h)
  interval u h := checkInterval_settingsSound h
  holdx u h := checkHold_settingsSound h
  strobe u h := h
  mbyte u b ok h := markerByte_settingsSound h b ok
  cut u h := h
  fence u h _ := takeFence_settingsSound h
  serve u k e car p h _ := putCar_settingsSound h _ _
  inquiry u k car h _ := h
  sent u h _ := h
  sbit u h _ := h
  rbyte u e b ok h _ _ _ := h
  outcome u e o r h _ := takeOutcome_settingsSound h e o r
  settled u h _ := h
  answered u h := h
  soft u h := softReset_settingsSound h
  pin _ _ _ := reset_settingsSound
  pow _ _ _ := reset_settingsSound
  rel u h := h

/-- Settles O16: each change of state that a row can make keeps the settings sound, and the port does not bear on
them. -/
theorem settingsStaySound : Obligations.SettingsStaySound :=
  step_keeps (fun _ _ h => h) (exec_keeps keeps_settingsSound fun _ _ h => h)

end Sys2Proof.Machine
end

section
/-! PROOFS. SETCOMP, SETTRAV and SETLIM. -/

namespace Sys2Proof.Machine

/-! ### The parts a change leaves -/

section
variable {named : List Block} {s u : State} (h : KeptBut named s u)
include h

theorem KeptBut.setPoll (x : PollEngine) (hb : Block.poll ∈ named) : KeptBut named s (u.setPoll x) := by
  obtain ⟨hk, h1, h2, h3⟩ := h
  refine ⟨fun b => ?_, h1, h2, h3⟩
  cases b
  case poll => exact Or.inl hb
  all_goals exact hk _

theorem KeptBut.setHealth (x : List CarHealth) (hb : Block.health ∈ named) : KeptBut named s (u.setHealth x) := by
  obtain ⟨hk, h1, h2, h3⟩ := h
  refine ⟨fun b => ?_, h1, h2, h3⟩
  cases b
  case health => exact Or.inl hb
  all_goals exact hk _

end

/-! ### SETCOMP -/

section
variable {s : State} {payload : List Byte} (hs : s.takes (.setcomp payload)) (hm : s.mode.mode = .config)
include hs hm

/-- SETCOMP answers the reason of the check that its payload fails, and changes nothing (R87). -/
theorem setcomp_refuses {reason : CompReason} {k : Nat} (h : parseComposition payload = .error (reason, k)) :
    ∃ t, exec (.setcomp payload) s = .next t ∧ Answered s t .setcomp .badParam (.compReason reason k)
      ∧ KeptBut [] s t :=
  runCommand_answers_unchanged (owner := actSetcomp payload) hs rfl (decide_eq_true hm) (by rw [actSetcomp, h])

/-- SETCOMP replaces the composition, with all that depends on it (R88, R89). -/
theorem setcomp_composes {c : Composition} (h : parseComposition payload = .ok c) :
    ∃ t, exec (.setcomp payload) s = .next t ∧ Answered s t .setcomp .done (.value c.cars.length)
      ∧ KeptBut [.demand, .health, .poll] s t
      ∧ t.demand = { s.demand with composition := some c, cars := List.replicate carIndices CarOutput.clear }
      ∧ t.health = healthClear ∧ t.poll = s.poll.recomposed :=
  runCommand_answers (owner := actSetcomp payload) ((s.admitted .setcomp).compose c) hs rfl (decide_eq_true hm)
    (by rw [actSetcomp, h]) (LinkKept.refl _)
    ((((KeptBut.refl _ _).setDemand _ (by simp)).setHealth _ (by simp)).setPoll _ (by simp)) ⟨rfl, rfl, rfl⟩

end

theorem recomposed_waiting {p : PollEngine} {k : Nat} (h : p.manual = .waiting k) : p.recomposed.manual = .empty := by
  simp [PollEngine.recomposed, h]

theorem recomposed_notWaiting {p : PollEngine} (h : ∀ k, p.manual ≠ .waiting k) : p.recomposed.manual = p.manual := by
  cases hmanual : p.manual with
  | empty => simp [PollEngine.recomposed, hmanual]
  | waiting k => exact absurd hmanual (h k)
  | inFlight k => simp [PollEngine.recomposed, hmanual]

/-- Settles O41: the first check that a payload fails names the refusal, and a sound composition passes them all. -/
theorem setcompReplacesTheComposition : Obligations.SetcompReplacesTheComposition := by
  refine ⟨fun s hs hm => setcomp_refuses hs hm rfl,
    fun s n rest hs hm hlen => setcomp_refuses hs hm (parseComposition_wrongLength hlen),
    fun s c hs hm hfits => ⟨fun hcount => setcomp_refuses hs hm (parseComposition_count hfits hcount),
      fun h1 h16 => ?_, fun hsound => ?_⟩⟩
  · have hchecks := parseComposition_checks hfits h1 h16
    refine ⟨fun k hk => ?_, fun haddress => ⟨fun k hk => ?_, fun hrepeat => ⟨fun k hk => ?_, fun horder =>
      ⟨fun hbad => ?_, fun hlength hreader => ?_⟩⟩⟩⟩
    · exact setcomp_refuses hs hm (hchecks.trans (checkComposition_address hk))
    · exact setcomp_refuses hs hm (hchecks.trans (checkComposition_duplicate haddress hk))
    · exact setcomp_refuses hs hm (hchecks.trans (checkComposition_order haddress hrepeat hk))
    · exact setcomp_refuses hs hm (hchecks.trans (checkComposition_trainLength haddress hrepeat horder h1 hbad))
    · exact setcomp_refuses hs hm
        (hchecks.trans (checkComposition_reader haddress hrepeat horder h1 hlength hreader))
  · obtain ⟨h1, h16, _⟩ := id hsound
    have hparse := (parseComposition_checks hfits h1 h16).trans ((checkComposition_eq_ok h1 h16).2 ⟨hsound, rfl⟩)
    obtain ⟨t, hexec, hanswer, hkept, hdemand, hhealth, hpoll⟩ := setcomp_composes hs hm hparse
    refine ⟨t, hexec, hanswer, hkept, ?_, ?_, hhealth, ?_, fun k hk => ?_, fun hk => ?_⟩
    · rw [hdemand]
    · rw [hdemand]; rfl
    · rw [hpoll]; rfl
    · rw [hpoll]; exact recomposed_waiting hk
    · rw [hpoll]; exact recomposed_notWaiting hk

/-! ### SETTRAV and SETLIM -/

theorem actSettrav_badParam {f : OrientationFields} (h : f.travel = .other ∨ f.lead = .other) (s : State) :
    actSettrav f s = .refuse s .badParam := by
  rcases h with h | h
  · simp only [actSettrav, h]
  · cases ht : f.travel <;> simp only [actSettrav, h, ht]

theorem actSettrav_named {f : OrientationFields} {travel : TravelSense} {lead : TrainEnd}
    (ht : f.travel = .named travel) (hl : f.lead = .named lead) (s : State) : actSettrav f s =
      .done ((s.setPosition { s.position with travel := travel, latch := none }).setDemand
        { s.demand with lead := lead }) := by
  simp only [actSettrav, ht, hl]

/-- Settles O42: the branches of the two acts. -/
theorem orientationAndLimitsAreReplaced : Obligations.OrientationAndLimitsAreReplaced := by
  refine ⟨fun s f hs hm => ⟨fun hother => ?_, fun travel lead ht hl => ?_⟩,
    fun s f ok hs hm hok => ?_⟩
  · exact runCommand_answers_unchanged (owner := actSettrav f) hs rfl (decide_eq_true hm)
      (actSettrav_badParam hother _)
  · exact runCommand_answers (owner := actSettrav f) _ hs rfl (decide_eq_true hm) (actSettrav_named ht hl _)
      (LinkKept.refl (s.admitted .settrav))
      (((KeptBut.refl _ (s.admitted .settrav)).setPosition _ (by simp)).setDemand _ (by simp)) ⟨rfl, rfl⟩
  · have hcheck : limitsOk f = true ↔ ok := by
      rw [limitsOk_iff, hok]
      simp only [limitsOf, Limits.sound, and_assoc]
    refine ⟨fun hn => ?_, fun hy => ?_⟩
    · exact runCommand_answers_unchanged (owner := actSetlim f) hs rfl (decide_eq_true hm)
        (if_neg fun h => hn (hcheck.1 h))
    · exact runCommand_answers (owner := actSetlim f) _ hs rfl (decide_eq_true hm) (if_pos (hcheck.2 hy))
        (LinkKept.refl (s.admitted .setlim)) ((KeptBut.refl _ (s.admitted .setlim)).setDemand _ (by simp)) rfl

end Sys2Proof.Machine
end

section
/-! SUPPORT. Where a lean stays: the demand, one slew step toward it, a setpoint and a preview value are each of
magnitude at most 800 (R101 to R107); and which changes keep every last sent setpoint. -/

namespace Sys2Proof.Machine

/-! ### Magnitudes -/

theorem leanOk_zero : leanOk 0 := ⟨by decide, by decide⟩

theorem limitMagnitude_leanOk (v : Int) {cap : Nat} (h : cap ≤ 800) : leanOk (limitMagnitude v cap) := by
  unfold leanOk limitMagnitude
  omega

/-- Halving, truncating toward zero, leads toward 0 (R103). -/
theorem halved_leanOk {v : Int} (h : leanOk v) : leanOk (v.tdiv 2) := by
  obtain ⟨hlow, hhigh⟩ := h
  have habs : (v.tdiv 2).natAbs = v.natAbs / 2 := Int.natAbs_tdiv v 2
  exact ⟨by omega, by omega⟩

theorem capFor_le (s : State) (k : Nat) (p : Int) : s.capFor k p ≤ 800 :=
  Nat.le_trans (Nat.min_le_left _ _) (limitCap_spec s.table.slots p).1

theorem demandAt_leanOk (s : State) (k : Nat) (p : Int) : leanOk (s.demandAt k p) := by
  have hcapped := limitMagnitude_leanOk
    (rawSum s.table.slots s.demand.limits.band s.position.snapshot.speed p) (capFor_le s k p)
  unfold State.demandAt
  split
  · exact halved_leanOk hcapped
  · exact hcapped

/-- A step toward a target does not pass it (R105). -/
theorem slew_leanOk (limit : Nat) {last target : Int} (hl : leanOk last) (ht : leanOk target) :
    leanOk (slew limit last target) := by
  obtain ⟨hl1, hl2⟩ := hl
  obtain ⟨ht1, ht2⟩ := ht
  unfold slew leanOk
  split
  · exact ⟨ht1, ht2⟩
  · split <;> omega

theorem preview_leanOk (s : State) (k : Nat) (p q : Int) : leanOk (s.preview k p q) := by
  unfold State.preview
  split
  · exact leanOk_zero
  · split
    · exact demandAt_leanOk s k q
    · exact leanOk_zero

/-! ### The last sent setpoints -/

/-- Every last sent setpoint is a lean. -/
def DemandUnit.sentOk (d : DemandUnit) : Prop := d.cars.length = 16 ∧ ∀ c ∈ d.cars, leanOk c.lastSent

/-- Every value of the frame last put on the bus is a lean. -/
def PollEngine.frameOk (p : PollEngine) : Prop := ∀ f, p.frame = some f → ∀ v ∈ f.values, leanOk v

theorem leanSound_iff (s : State) : s.leanSound ↔ s.demand.sentOk ∧ s.poll.frameOk := and_assoc.symm

/-- The last sent setpoints, car by car. -/
def DemandUnit.sent (d : DemandUnit) : List Int := d.cars.map CarOutput.lastSent

/-- What keeps the last sent setpoints keeps them leans. -/
theorem DemandUnit.sentOk.of_sent_eq {d e : DemandUnit} (h : d.sentOk) (he : e.sent = d.sent) : e.sentOk := by
  obtain ⟨hlen, hsent⟩ := h
  refine ⟨?_, fun c hc => ?_⟩
  · simpa [DemandUnit.sent, hlen] using congrArg List.length he
  · have hmem : c.lastSent ∈ d.sent := he ▸ List.mem_map_of_mem hc
    obtain ⟨c', hc', heq⟩ := List.mem_map.1 hmem
    exact heq ▸ hsent c' hc'

theorem map_mapNumbered {α β : Type} {f : Nat → α → α} {g : α → β} (h : ∀ k x, g (f k x) = g x) :
    ∀ (k : Nat) (l : List α), (mapNumbered f k l).map g = l.map g
  | _, [] => rfl
  | k, x :: xs => by simp [mapNumbered, h, map_mapNumbered h (k + 1) xs]

/-- FIXED latched changes no last sent setpoint (R111). -/
theorem latchFixed_sent (d : DemandUnit) : d.latchFixed.sent = d.sent :=
  map_mapNumbered (fun k c => by split <;> rfl) 1 d.cars

/-- CHANGED latched changes no last sent setpoint (R110). -/
theorem latchChanged_sent (s : State) : s.latchChanged.demand.sent = s.demand.sent :=
  map_mapNumbered (fun k c => by split <;> rfl) 1 s.demand.cars

theorem putCar_cars {k : Nat} (h : k ≠ 0) (d : DemandUnit) (f : CarOutput → CarOutput) :
    (d.putCar k f).cars = d.cars.modify (k - 1) f := by
  simp [DemandUnit.putCar, h]

section
variable {d : DemandUnit} {k : Nat} (hk : 1 ≤ k) (f : CarOutput → CarOutput)
include hk

theorem putCar_keeps_rest : d.putCar k f = { d with cars := (d.putCar k f).cars } := by
  simp [DemandUnit.putCar, Nat.ne_of_gt hk]

theorem putCar_other {j : Nat} (hj : j ≠ k - 1) : (d.putCar k f).cars[j]? = d.cars[j]? := by
  rw [putCar_cars (Nat.ne_of_gt hk), List.getElem?_modify_ne _ _ hj.symm]

theorem putCar_same {o : CarOutput} (ho : d.cars[k - 1]? = some o) : (d.putCar k f).cars[k - 1]? = some (f o) := by
  rw [putCar_cars (Nat.ne_of_gt hk), List.getElem?_modify_eq, ho]
  rfl

end

/-- The output state of one car index changed, its last sent setpoint to a lean. -/
theorem DemandUnit.sentOk.putCar {d : DemandUnit} (h : d.sentOk) (k : Nat) {f : CarOutput → CarOutput}
    (hf : ∀ c, leanOk c.lastSent → leanOk (f c).lastSent) : (d.putCar k f).sentOk := by
  obtain ⟨hlen, hsent⟩ := h
  by_cases hk : k = 0
  · subst hk
    exact ⟨hlen, hsent⟩
  · refine ⟨by rw [putCar_cars hk, List.length_modify, hlen], fun c hc => ?_⟩
    rw [putCar_cars hk] at hc
    obtain ⟨j, hj⟩ := List.getElem?_of_mem hc
    rw [List.getElem?_modify] at hj
    obtain ⟨c', hc', rfl⟩ := Option.map_eq_some_iff.1 hj
    have hold := hsent c' (List.mem_of_getElem? hc')
    split
    · exact hf c' hold
    · exact hold

/-- A reply leaves the setpoint that was sent (R113). -/
theorem settle_lastSent (c : CarOutput) (kind : FrameKind) (r : Option Reply) :
    (c.settle kind r).lastSent = c.lastSent := by
  unfold CarOutput.settle
  split
  · rfl
  · split <;> rfl

/-- The power-on values of the output state. -/
theorem replicate_sentOk (d : DemandUnit) :
    ({ d with cars := List.replicate carIndices CarOutput.clear } : DemandUnit).sentOk := by
  refine ⟨rfl, fun c hc => ?_⟩
  obtain rfl : c = CarOutput.clear := List.eq_of_mem_replicate hc
  exact leanOk_zero

/-! ### The values of a frame -/

theorem outputOf_leanOk {s : State} (h : s.demand.sentOk) (k : Nat) : leanOk (s.outputOf k).lastSent := by
  obtain ⟨_, hsent⟩ := h
  unfold State.outputOf
  rw [List.getD_eq_getElem?_getD]
  split
  · exact leanOk_zero
  · cases hc : s.demand.cars[k - 1]? with
    | none => exact leanOk_zero
    | some c => exact hsent c (List.mem_of_getElem? hc)

theorem target_leanOk {s : State} (h : s.demand.sentOk) (k : Nat) (p : Int) : leanOk (s.target k p) := by
  unfold State.target
  split
  · split
    · exact leanOk_zero
    · exact demandAt_leanOk s k p
  · exact outputOf_leanOk h k
  · exact leanOk_zero
  · exact leanOk_zero

theorem setpoint_leanOk {s : State} (h : s.demand.sentOk) (k : Nat) (p : Int) : leanOk (s.setpoint k p) := by
  unfold State.setpoint
  split
  · exact leanOk_zero
  · exact slew_leanOk _ (outputOf_leanOk h k) (target_leanOk h k p)

theorem frameValues_leanOk {s : State} (h : s.demand.sentOk) (k : Nat) (p : Int) (span : Nat) :
    ∀ v ∈ s.frameValues k p span, leanOk v := by
  intro v hv
  rcases List.mem_cons.1 hv with rfl | hv
  · exact setpoint_leanOk h k p
  · obtain ⟨q, _, rfl⟩ := List.mem_map.1 hv
    exact preview_leanOk s k p q

end Sys2Proof.Machine
end

section
/-! PROOFS. Every step keeps every last sent setpoint, and every value of the frame on the bus, within 800. -/

namespace Sys2Proof.Machine

section
variable {u : State} (h : u.leanSound)
include h

theorem checkInterval_leanSound : u.checkInterval.leanSound := by unfold State.checkInterval; split <;> exact h

theorem checkHold_leanSound : u.checkHold.leanSound := by unfold State.checkHold; split <;> exact h

/-- A fix applied latches FIXED and changes no other part of the output state (R111). -/
theorem judgeFix_leanSound (i : Nat) (e : Int) : (u.judgeFix i e).leanSound := by
  rw [leanSound_iff] at h
  obtain ⟨hsent, hframe⟩ := h
  unfold State.judgeFix
  split
  · exact (leanSound_iff _).2 ⟨hsent.of_sent_eq (latchFixed_sent u.demand), hframe⟩
  · exact (leanSound_iff _).2 ⟨hsent, hframe⟩

theorem takeMessage_leanSound (m : MarkerReception) : (u.takeMessage m).leanSound := by
  unfold State.takeMessage
  split
  · split
    · exact h
    · split
      · exact h
      · exact judgeFix_leanSound (u := u.setPosition { u.position.endReception with latch := none }) h _ _
  · exact h

theorem markerByte_leanSound (b : Byte) (ok : Bool) : (u.markerByte b ok).leanSound := by
  unfold State.markerByte
  split
  · split <;> exact h
  · split
    · exact takeMessage_leanSound h _
    · exact h

/-- A fence latches CHANGED and changes no other part of the output state (R110). -/
theorem takeFence_leanSound : u.takeFence.leanSound := by
  rw [leanSound_iff] at h ⊢
  obtain ⟨hsent, hframe⟩ := h
  exact ⟨hsent.of_sent_eq (latchChanged_sent u.fenceSnapshot.fenceTable), hframe⟩

/-- The setpoint sent is the first value of the frame on the bus (R98, R105). -/
theorem serveEntry_leanSound (k : Nat) (e : PlanEntry) (address : Nat) (p : Int) :
    (u.serveEntry k e address p).leanSound := by
  rw [leanSound_iff] at h ⊢
  obtain ⟨hsent, _⟩ := h
  refine ⟨hsent.putCar _ fun c _ => setpoint_leanOk hsent e.car p, fun f hf => ?_⟩
  obtain rfl := Option.some.inj hf
  exact frameValues_leanOk hsent e.car p e.span

/-- An inquiry carries no value (R120). -/
theorem startInquiry_leanSound (k address : Nat) : (u.startInquiry k address).leanSound := by
  rw [leanSound_iff] at h ⊢
  obtain ⟨hsent, _⟩ := h
  refine ⟨hsent, fun f hf => ?_⟩
  obtain rfl := Option.some.inj hf
  exact nofun

theorem takeOutcome_leanSound (e : Exchange) (o : ExchangeOutcome) (r : Option Reply) :
    (u.takeOutcome e o r).leanSound := by
  have hended : (u.setPoll (u.poll.endExchange e)).leanSound := h
  have hstored : (((u.setPoll (u.poll.endExchange e)).countOutcome e.car o).setDemand
      (u.demand.putCar e.car fun c => c.settle e.kind r)).leanSound := by
    rw [leanSound_iff] at h ⊢
    obtain ⟨hsent, hframe⟩ := h
    exact ⟨hsent.putCar _ fun c hc => by rwa [settle_lastSent], hframe⟩
  unfold State.takeOutcome State.applyOutcome
  simp only
  split
  · exact hended
  · split
    · exact hstored
    · exact hstored

theorem compose_leanSound (c : Composition) : (u.compose c).leanSound := by
  rw [leanSound_iff] at h ⊢
  obtain ⟨_, hframe⟩ := h
  exact ⟨replicate_sentOk { u.demand with composition := some c }, hframe⟩

theorem softReset_leanSound : u.softReset.leanSound := by
  rw [leanSound_iff] at h ⊢
  obtain ⟨_, hframe⟩ := h
  exact ⟨replicate_sentOk u.demand, hframe⟩

end

/-- Every change of state that a row can make keeps the leans within their bound. Most rows touch neither the last sent
setpoints nor the frame on the bus. -/
theorem keeps_leanSound : Keeps State.leanSound where
  start u h _ := by unfold actStart; split <;> exact h
  run u h _ := by unfold actRun; split <;> exact h
  stby u h _ := by unfold actStby; split <;> exact h
  hold u d h _ := by unfold actHold; split <;> exact h
  stop u h _ := by unfold actStop; split <;> exact h
  reset u h := h
  setcal u n h := by unfold actSetcal; split <;> exact h
  setpos u p h := h
  setfix u f h := by
    unfold actSetfix
    split
    · exact h
    · exact checkInterval_leanSound (u := u.setPosition _) h
  openr u f h _ := by unfold actOpenr; split <;> exact h
  putp u vs h _ := by unfold actWrite; split; exact h; split <;> exact h
  contp u vs h _ := by unfold actWrite; split; exact h; split <;> exact h
  closer u h _ := by unfold actCloser; split; exact h; split <;> exact h
  abandr u h _ := by unfold actAbandr; split <;> exact h
  wdraw u f h _ := by unfold actWdraw; split; exact h; split <;> exact h
  wdsect u f h _ := by unfold actWdsect; split <;> exact h
  clrtab u h _ := h
  rdrec u f h := by unfold actRdrec State.readSlot; split; exact h; split; exact h; split <;> exact h
  rdslot u f h := by unfold actRdslot State.readSlot; split; exact h; split; exact h; split <;> exact h
  tsum u h := h
  cover u p h _ := by unfold actCover; split <;> exact h
  setcyc u f h := by unfold actSetcyc; split <;> exact h
  setcomp u p h _ := by unfold actSetcomp; split; exact h; exact compose_leanSound h _
  settrav u f h _ := by unfold actSettrav; split <;> exact h
  setlim u f h _ := by unfold actSetlim; split <;> exact h
  setbus u n h := by unfold actSetbus; split; exact h; split <;> exact h
  ldplan u p h := by unfold actLdplan; split <;> exact h
  canplan u h := by unfold actCanplan; split <;> exact h
  canstby u h := by unfold actCanstby; split <;> exact h
  xchg u k h _ := by unfold actXchg; split; exact h; exact h; split <;> exact h
  canxchg u h := by unfold actCanxchg; split <;> exact h
  rdxchg u h := by unfold actRdxchg; split <;> exact h
  restore u k h _ := by unfold actRestore; split; exact h; split <;> exact h
  pulse u d h := checkHold_leanSound (checkInterval_leanSound (u := u.movePulse d) h)
  interval u h := checkInterval_leanSound h
  holdx u h := checkHold_leanSound h
  strobe u h := h
  mbyte u b ok h := markerByte_leanSound h b ok
  cut u h := h
  fence u h _ := takeFence_leanSound h
  serve u k e car p h _ := serveEntry_leanSound h k e car.address p
  inquiry u k car h _ := startInquiry_leanSound h k car.address
  sent u h _ := h
  sbit u h _ := h
  rbyte u e b ok h _ _ _ := h
  outcome u e o r h _ := takeOutcome_leanSound h e o r
  settled u h _ := h
  answered u h := h
  soft u h := softReset_leanSound h
  pin _ _ _ := reset_leanSound
  pow _ _ _ := reset_leanSound
  rel u h := h

/-- Settles O14: each change of state that a row can make keeps the bound, and the port does not bear on it. -/
theorem leanStaysWithinItsBound : Obligations.LeanStaysWithinItsBound :=
  step_keeps (fun _ _ h => h) (exec_keeps keeps_leanSound fun _ _ h => h)

end Sys2Proof.Machine
end

section
/-! PROOFS. How the demand at a place is formed: the shape, the speed factor, the contribution of a slot, the raw sum,
the cap and the demand. -/

namespace Sys2Proof.Machine

/-! ### The shape -/

section
variable {c : Curve} {e0 e3 : Nat} {p : Int}

theorem shape_outside (h : p < e0 ∨ (e3 : Int) ≤ p) : c.shape e0 e3 p = 0 := if_pos h

theorem shape_entry (h0 : (e0 : Int) ≤ p) (h3 : p < e3) (h1 : p < c.e1) :
    c.shape e0 e3 p = interpolate c.entryList (c.e1 - e0) (p - e0).toNat := by
  rw [Curve.shape, if_neg (by omega), if_pos h1]

theorem shape_body (h0 : (e0 : Int) ≤ p) (h3 : p < e3) (h1 : (c.e1 : Int) ≤ p) (h2 : p < c.e2) :
    c.shape e0 e3 p = 1024 := by
  rw [Curve.shape, if_neg (by omega), if_neg (by omega), if_pos h2]
  rfl

theorem shape_exit (h0 : (e0 : Int) ≤ p) (h3 : p < e3) (h1 : (c.e1 : Int) ≤ p) (h2 : (c.e2 : Int) ≤ p) :
    c.shape e0 e3 p = interpolate c.exitList (e3 - c.e2) (e3 - p).toNat := by
  rw [Curve.shape, if_neg (by omega), if_neg (by omega), if_neg (by omega)]

/-- A transition without a profile runs straight from 0 to 1024 (R99). -/
theorem interpolate_straight {len u : Nat} (hu : u ≤ len) (hlen : 0 < len) :
    interpolate [0, 1024] len u = (u : Int) * 1024 / len := by
  rcases Nat.lt_or_eq_of_le hu with hlt | rfl
  · have hi : u / len = 0 := Nat.div_eq_of_lt hlt
    by_cases h0 : u = 0
    · simp [interpolate, h0]
    · have hr : ((1024 : Int) * u).tdiv len = u * 1024 / len := by
        rw [Int.mul_comm, Int.tdiv_eq_ediv_of_nonneg (by omega)]
      simp [interpolate, hi, h0, hr]
  · have hi : u / u = 1 := Nat.div_self hlen
    have hz : (u : Int) ≠ 0 := by omega
    simp [interpolate, hi, Int.mul_ediv_cancel_left _ hz]

/-- The interpolation of R99, with its quotient and its remainder named. -/
theorem interpolate_eq {w : List Nat} {u len t i r wi wNext : Nat} (ht : t = u * (w.length - 1)) (hi : i = t / len)
    (hr : r = t - i * len) (hwi : w[i]? = some wi) (hnext : r ≠ 0 → w[i + 1]? = some wNext) :
    interpolate w len u = if r = 0 then (wi : Int) else wi + (((wNext : Int) - wi) * r).tdiv len := by
  subst ht hi hr
  unfold interpolate
  simp only [List.getD_eq_getElem?_getD, hwi, Option.getD_some]
  split
  · rfl
  · rw [hnext (by assumption), Option.getD_some]

theorem entryList_eq {w : List Nat} (hw : 2 ≤ w.length) (h : w = c.entry) : c.entryList = w := by
  subst h
  exact if_neg fun hn => by simp [hn] at hw

theorem exitList_eq {w : List Nat} (hw : 2 ≤ w.length) (h : w = c.exit.reverse) : c.exitList = w := by
  subst h
  exact if_neg fun hn => by simp [hn] at hw

end

/-! ### The speed factor and the contribution -/

section
variable {b : Band} {v : Nat}

theorem factor_below (h : v ≤ b.vZero) : b.factor v = 0 := if_pos h

theorem factor_above (h0 : b.vZero < v) (h : b.vFull ≤ v) : b.factor v = 1024 := by
  rw [Band.factor, if_neg (Nat.not_le.2 h0), if_pos h]
  rfl

theorem factor_between (h0 : b.vZero < v) (h : v < b.vFull) :
    b.factor v = (v - b.vZero) * 1024 / (b.vFull - b.vZero) := by
  rw [Band.factor, if_neg (Nat.not_le.2 h0), if_neg (Nat.not_le.2 h)]
  rfl

end

theorem handSign_eq (hand : Hand) : handSign hand = if hand = .right then 1 else -1 := by cases hand <;> rfl

section
variable {x : Slot} {r : Record} {band : Band} {v : Nat} {p : Int}

theorem contribution_empty (h : x.live = none) : x.contribution band v p = 0 := by
  simp only [Slot.contribution, h]

theorem contribution_limit (hl : x.live = some r) {cap : Nat} (hb : r.body = .limit cap) :
    x.contribution band v p = 0 := by
  simp only [Slot.contribution, hl, Record.contribution, hb]

theorem contribution_outside (hl : x.live = some r) (h : p < r.e0 ∨ (r.e3 : Int) ≤ p) :
    x.contribution band v p = 0 := by
  have hc : ¬ r.covers p = true := by
    simp only [Record.covers, decide_eq_true_eq]
    omega
  cases hb : r.body with
  | limit cap => exact contribution_limit hl hb
  | curve c => simp only [Slot.contribution, hl, Record.contribution, hb, if_neg hc]

theorem contribution_curve (hl : x.live = some r) {c : Curve} (hb : r.body = .curve c) (h0 : (r.e0 : Int) ≤ p)
    (h3 : p < r.e3) : x.contribution band v p =
      ((if c.hand = .right then 1 else -1) * c.angle * c.shape r.e0 r.e3 p * (c.band.getD band).factor v
        * (x.fade.getD 16)).tdiv 16777216 := by
  have hc : r.covers p = true := decide_eq_true ⟨h0, h3⟩
  simp only [Slot.contribution, hl, Record.contribution, hb, if_pos hc, handSign_eq]
  rfl

end

/-! ### The cap -/

/-- A car that takes no lean is CUT OUT or RECOVERING (R94). -/
theorem out_iff (h : HealthState) : h.out = true ↔ h = .cutOut ∨ h = .recovering := by
  cases h <;> simp [HealthState.out]

theorem mem_neighbours {count k j : Nat} (hk : 1 ≤ k) :
    j ∈ neighbours count k ↔ (j + 1 = k ∨ j = k + 1) ∧ 1 ≤ j ∧ j ≤ count := by
  simp only [neighbours, List.mem_filter, List.mem_cons, List.not_mem_nil, or_false, Bool.and_eq_true,
    decide_eq_true_eq]
  omega

theorem neighbourOut_iff (s : State) {k : Nat} (hk : 1 ≤ k) : s.neighbourOut k = true ↔
    ∃ j, (j + 1 = k ∨ j = k + 1) ∧ 1 ≤ j ∧ j ≤ s.demand.carCount
      ∧ ((s.healthOf j).state = .cutOut ∨ (s.healthOf j).state = .recovering) := by
  simp only [State.neighbourOut, List.any_eq_true, mem_neighbours hk, out_iff, and_assoc]

/-- A cap that applies at a place for a car (R102): 800, a LIMIT there, DOUBT's, or the gangway's. -/
inductive State.CapApplies (s : State) (k : Nat) (p : Int) : Nat → Prop
  | always : s.CapApplies k p 800
  | limit {x : Slot} {r : Record} {n : Nat} : x ∈ s.table.slots → x.live = some r → r.body = .limit n →
      (r.e0 : Int) ≤ p → p < r.e3 → s.CapApplies k p n
  | doubt : s.position.snapshot.lock = .doubt → s.CapApplies k p s.demand.limits.doubtCap
  | gangway : s.neighbourOut k = true → s.CapApplies k p s.demand.limits.gangway

/-- The cap for a car is one of those that apply. -/
theorem capFor_applies (s : State) (k : Nat) (p : Int) : s.CapApplies k p (s.capFor k p) := by
  obtain ⟨_, _, hat⟩ := limitCap_spec s.table.slots p
  have hlimit : s.CapApplies k p (limitCap s.table.slots p) := by
    rcases hat with h | ⟨x, hx, r, hl, hb, h0, h3⟩
    · exact h.symm ▸ .always
    · exact .limit hx hl hb h0 h3
  have hlock : s.CapApplies k p (if s.position.snapshot.lock = .doubt then s.demand.limits.doubtCap else maxLean) := by
    split
    · exact .doubt (by assumption)
    · exact .always
  have hgangway : s.CapApplies k p (if s.neighbourOut k then s.demand.limits.gangway else maxLean) := by
    split
    · exact .gangway (by assumption)
    · exact .always
  have hmin : ∀ {m n : Nat}, s.CapApplies k p m → s.CapApplies k p n → s.CapApplies k p (min m n) := by
    intro m n hm hn
    rcases Nat.le_total m n with h | h
    · rwa [Nat.min_eq_left h]
    · rwa [Nat.min_eq_right h]
  exact hmin hlimit (hmin hlock hgangway)

/-- No cap that applies is less than the cap for a car. -/
theorem capFor_least {s : State} {k : Nat} {p : Int} {n : Nat} (h : s.CapApplies k p n) : s.capFor k p ≤ n := by
  obtain ⟨hle, hlow, _⟩ := limitCap_spec s.table.slots p
  unfold State.capFor
  cases h with
  | always => omega
  | limit hx hl hb h0 h3 =>
    have := hlow _ hx _ _ hl hb h0 h3
    omega
  | doubt h => rw [if_pos h]; omega
  | gangway h => rw [if_pos h]; omega

/-- The cap for a car is the least of those that apply (R102). -/
theorem eq_capFor_iff (s : State) (k cap : Nat) (p : Int) :
    cap = s.capFor k p ↔ s.CapApplies k p cap ∧ ∀ n, s.CapApplies k p n → cap ≤ n := by
  constructor
  · rintro rfl
    exact ⟨capFor_applies s k p, fun n => capFor_least⟩
  · rintro ⟨happlies, hleast⟩
    exact Nat.le_antisymm (hleast _ (capFor_applies s k p)) (capFor_least happlies)

theorem capApplies_iff (s : State) (k cap : Nat) (p : Int) : s.CapApplies k p cap ↔
    cap = 800 ∨ (∃ x ∈ s.table.slots, ∃ r, x.live = some r ∧ r.body = .limit cap ∧ (r.e0 : Int) ≤ p ∧ p < r.e3)
      ∨ s.position.snapshot.lock = .doubt ∧ cap = s.demand.limits.doubtCap
      ∨ s.neighbourOut k = true ∧ cap = s.demand.limits.gangway := by
  constructor
  · rintro (_ | ⟨hx, hl, hb, h0, h3⟩ | h | h)
    · exact .inl rfl
    · exact .inr (.inl ⟨_, hx, _, hl, hb, h0, h3⟩)
    · exact .inr (.inr (.inl ⟨h, rfl⟩))
    · exact .inr (.inr (.inr ⟨h, rfl⟩))
  · rintro (rfl | ⟨x, hx, r, hl, hb, h0, h3⟩ | ⟨h, rfl⟩ | ⟨h, rfl⟩)
    · exact .always
    · exact .limit hx hl hb h0 h3
    · exact .doubt h
    · exact .gangway h

theorem le_capApplies_iff (s : State) (k cap : Nat) (p : Int) : (∀ n, s.CapApplies k p n → cap ≤ n) ↔
    cap ≤ 800
      ∧ (∀ x ∈ s.table.slots, ∀ r n, x.live = some r → r.body = .limit n → (r.e0 : Int) ≤ p → p < r.e3 → cap ≤ n)
      ∧ (s.position.snapshot.lock = .doubt → cap ≤ s.demand.limits.doubtCap)
      ∧ (s.neighbourOut k = true → cap ≤ s.demand.limits.gangway) := by
  constructor
  · intro h
    exact ⟨h _ .always, fun x hx r n hl hb h0 h3 => h n (.limit hx hl hb h0 h3), fun hd => h _ (.doubt hd),
      fun hg => h _ (.gangway hg)⟩
  · rintro ⟨halways, hlimit, hdoubt, hgangway⟩ n (_ | ⟨hx, hl, hb, h0, h3⟩ | h | h)
    · exact halways
    · exact hlimit _ hx _ n hl hb h0 h3
    · exact hdoubt h
    · exact hgangway h

/-- Settles O52: each part by the branch of its definition that it falls in. -/
theorem demandIsFormed : Obligations.DemandIsFormed := by
  refine ⟨fun c e0 e3 p h01 h12 h23 => ⟨shape_outside, fun h1 h2 => shape_body (by omega) (by omega) h1 h2,
      fun h0 h1 hnone => ?_, fun h2 h3 hnone => ?_, fun w u len t i r wi wNext hw hplace ht hi hr hwi hnext => ?_⟩,
    fun b v => ⟨factor_below, factor_above, factor_between⟩,
    fun x r band v p hl => ⟨contribution_outside hl, fun cap => contribution_limit hl,
      fun c hb h0 h3 => contribution_curve hl hb h0 h3⟩,
    fun x band v p => contribution_empty, fun slots band v p => rfl, fun s k hk => neighbourOut_iff s hk,
    fun s k cap p => ?_, fun s k p v hv => ?_⟩
  · have hlist : c.entryList = [0, 1024] := if_pos hnone
    rw [shape_entry h0 (by omega) h1, hlist, interpolate_straight (by omega) (by omega)]
    congr 1 <;> omega
  · have hlist : c.exitList = [0, 1024] := if_pos hnone
    rw [shape_exit (by omega) h3 (by omega) h2, hlist, interpolate_straight (by omega) (by omega)]
    congr 1 <;> omega
  · rcases hplace with ⟨h0, h1, hwe, hu, hlen⟩ | ⟨h2, h3, hwe, hu, hlen⟩
    · have hdist : (p - e0).toNat = u := by omega
      rw [shape_entry h0 (by omega) h1, entryList_eq hw hwe, ← hlen, hdist]
      exact interpolate_eq ht hi hr hwi hnext
    · have hdist : (e3 - p).toNat = u := by omega
      rw [shape_exit (by omega) h3 (by omega) h2, exitList_eq hw hwe, ← hlen, hdist]
      exact interpolate_eq ht hi hr hwi hnext
  · rw [eq_capFor_iff, capApplies_iff, le_capApplies_iff, and_comm]
    simp only [and_assoc]
  · rw [hv]
    rfl

end Sys2Proof.Machine
end

section
/-! PROOFS. The setpoint of a car, its preview points and values, and the reach. -/

namespace Sys2Proof.Machine

/-! ### The setpoint -/

section
variable {limit : Nat} {last target : Int}

theorem slew_reaches (h : (target - last).natAbs ≤ limit) : slew limit last target = target := if_pos h

theorem slew_up (h : limit < (target - last).natAbs) (hlt : last < target) : slew limit last target = last + limit := by
  rw [slew, if_neg (Nat.not_le.2 h), if_pos hlt]

theorem slew_down (h : limit < (target - last).natAbs) (hlt : target < last) : slew limit last target = last - limit := by
  rw [slew, if_neg (Nat.not_le.2 h), if_neg (Int.not_lt.2 (Int.le_of_lt hlt))]

end

section
variable {s : State} {k : Nat}

theorem setpoint_out (p : Int) (h : (s.healthOf k).state.out = true) : s.setpoint k p = 0 := if_pos h

theorem setpoint_in (p : Int) (h : (s.healthOf k).state.out = false) :
    s.setpoint k p = slew s.demand.limits.slew (s.outputOf k).lastSent (s.target k p) := by
  rw [State.setpoint, h]
  rfl

theorem not_out {h : HealthState} (hs : h = .served ∨ h = .limited) : h.out = false := by
  rcases hs with rfl | rfl <;> rfl

/-- The target of each mode in which setpoint frames are formed (R104). -/
theorem target_eq {p g : Int} (h : s.mode.mode = .running ∧ s.position.snapshot.lock ≠ .noFix ∧ g = s.demandAt k p
    ∨ s.mode.mode = .running ∧ s.position.snapshot.lock = .noFix ∧ g = 0
    ∨ s.mode.mode = .hold ∧ g = (s.outputOf k).lastSent
    ∨ s.mode.mode = .standby ∧ g = 0) : s.target k p = g := by
  rcases h with ⟨hm, hl, rfl⟩ | ⟨hm, hl, rfl⟩ | ⟨hm, rfl⟩ | ⟨hm, rfl⟩
  · simp only [State.target, hm, if_neg hl]
  · simp only [State.target, hm, if_pos hl]
  · simp only [State.target, hm]
  · simp only [State.target, hm]

end

/-! ### Preview points and values -/

/-- A span code of 0 to 3 asks for no, one, three or seven preview values (R107). -/
theorem previewCount_eq {span count : Nat}
    (h : span = 0 ∧ count = 0 ∨ span = 1 ∧ count = 1 ∨ span = 2 ∧ count = 3 ∨ span = 3 ∧ count = 7) :
    previewCount span = count := by
  rcases h with ⟨rfl, rfl⟩ | ⟨rfl, rfl⟩ | ⟨rfl, rfl⟩ | ⟨rfl, rfl⟩ <;> rfl

theorem previewPoints_length (s : State) (p : Int) (span : Nat) :
    (s.previewPoints p span).length = previewCount span := by
  simp [State.previewPoints]

theorem ahead_eq (travel : TravelSense) (p d : Int) :
    ahead travel p d = if travel = .ascending then p + d else p - d := by
  cases travel <;> rfl

/-- The preview point of a number, counted from 1: that many preview steps ahead of the car (R107). -/
theorem previewPoints_getElem? (s : State) (p : Int) {span j : Nat} (h1 : 1 ≤ j) (hj : j ≤ previewCount span) :
    (s.previewPoints p span)[j - 1]? = some
      (if s.position.travel = .ascending then p + ((j * s.demand.limits.previewStep : Nat) : Int)
        else p - ((j * s.demand.limits.previewStep : Nat) : Int)) := by
  have hlt : j - 1 < previewCount span := by omega
  rw [State.previewPoints, List.getElem?_map, List.getElem?_range hlt, Option.map_some, Nat.sub_add_cancel h1, ahead_eq]

theorem onTrack_iff (p : Int) : onTrack p = true ↔ 0 ≤ p ∧ p ≤ 4294967295 := decide_eq_true_iff

theorem offTrack {p : Int} (h : p < 0 ∨ 4294967295 < p) : onTrack p = false := by
  rw [← Bool.not_eq_true, onTrack_iff]
  omega

section
variable {s : State} {p : Int} (k : Nat) (q : Int)

theorem preview_idle (h : s.mode.mode ≠ .running ∨ s.position.snapshot.lock = .noFix) : s.preview k p q = 0 := if_pos h

theorem preview_offTrack (h : onTrack p = false) : s.preview k p q = 0 := by
  unfold State.preview
  rw [h]
  split <;> rfl

theorem preview_running (hm : s.mode.mode = .running) (hl : s.position.snapshot.lock ≠ .noFix) (hp : onTrack p = true) :
    s.preview k p q = s.demandAt k q := by
  rw [State.preview, if_neg (by simp [hm, hl]), if_pos hp]

end

/-! ### The reach -/

theorem beyondReach_none {s : State} (p : Int) (h : s.table.reach = none) : s.beyondReach p = true := by
  simp only [State.beyondReach, h]

theorem beyondReach_some {s : State} (p : Int) {reach : Nat} (h : s.table.reach = some reach) :
    s.beyondReach p = true ↔ if s.position.travel = .ascending then (reach : Int) ≤ p else p < (reach : Int) := by
  cases ht : s.position.travel <;> simp [State.beyondReach, h, ht]

/-- Settles O53: each part by the branch of its definition that it falls in. -/
theorem setpointIsSlewedTowardItsTarget : Obligations.SetpointIsSlewedTowardItsTarget := by
  refine ⟨fun s k p hout => setpoint_out p ((out_iff _).2 hout), fun s k p g hin htarget => ?_,
    fun s p span count hcount => ?_, fun s k p q => ⟨preview_idle k q, fun hp => preview_offTrack k q (offTrack hp),
      fun hm hl h0 h1 => preview_running k q hm hl ((onTrack_iff p).2 ⟨h0, h1⟩)⟩,
    fun s k q hs hq => demandAt_offTrack s k q hs (offTrack hq),
    fun s p => ⟨beyondReach_none p, fun reach => beyondReach_some p⟩⟩
  · rw [setpoint_in p (not_out hin), target_eq htarget]
    exact ⟨slew_reaches, slew_up, slew_down⟩
  · rw [previewPoints_length, previewCount_eq hcount]
    exact ⟨rfl, fun j h1 hj => previewPoints_getElem? s p h1 (by rwa [previewCount_eq hcount])⟩

end Sys2Proof.Machine
end

section
/-! PROOFS. The frames of the tilt bus: the frame of a plan entry started, and the bytes of a frame. -/

namespace Sys2Proof.Machine

/-! ### The next entry of the pass -/

theorem free_iff (p : PollEngine) : p.free = true ↔ p.phase = .idle ∧ p.exchange = none := by
  simp [PollEngine.free]

theorem servable_of_not_free {s : State} (h : ¬ s.poll.free = true) : s.servable = none := if_neg h

theorem servable_of_no_entry {s : State} (h : s.poll.nextEntry = none) : s.servable = none := by
  simp [State.servable, h]

theorem nextEntry_eq_none {p : PollEngine} (h : ∀ k, p.pass = some k → p.active.length < k) : p.nextEntry = none := by
  unfold PollEngine.nextEntry
  cases hp : p.pass with
  | none => rfl
  | some k =>
    have hlen : p.active.length ≤ k - 1 := Nat.le_sub_one_of_lt (h k hp)
    simp [List.getElem?_eq_none hlen]

theorem nextEntry_eq_some {p : PollEngine} {k : Nat} {e : PlanEntry} (hp : p.pass = some k) (hk : 1 ≤ k)
    (he : p.active[k - 1]? = some e) : p.nextEntry = some (k, e) := by
  simp [PollEngine.nextEntry, hp, he, Nat.ne_of_gt hk]

/-- A car stands behind the lead position by its effective offset (R91, R92). -/
theorem carPositionOf_eq {s : State} {c : Composition} {car : Car} {k : Nat} (lead : Nat) (hk : 1 ≤ k)
    (hc : s.demand.composition = some c) (hcar : c.cars[k - 1]? = some car) :
    s.carPositionOf lead k =
      some (carPosition s.position.travel lead (c.effective s.demand.lead car.offset)) := by
  simp [State.carPositionOf, State.carPositions, DemandUnit.effectiveOffsets, hc, hcar, Nat.ne_of_gt hk]

theorem carPosition_eq (travel : TravelSense) (lead d : Nat) :
    carPosition travel lead d = if travel = .ascending then (lead : Int) - d else (lead : Int) + d := by
  cases travel <;> simp [carPosition, ahead, Int.sub_eq_add_neg]

theorem exec_planEntryServed_none {s : State} (hr : s.resetHeld = false) (h : s.servable = none) :
    exec .planEntryServed s = .next s := by
  simp [exec, execPlanEntryServed, unlessHeld, hr, h]

theorem exec_planEntryServed_some {s : State} (hr : s.resetHeld = false) {k : Nat} {e : PlanEntry} {car : Car} {p : Int}
    (h : s.servable = some (k, e, car, p)) :
    exec .planEntryServed s = .next (s.serveEntry k e car.address p) := by
  simp [exec, execPlanEntryServed, unlessHeld, hr, h]

theorem outputOf_of_getElem? {s : State} {k : Nat} {o : CarOutput} (hk : 1 ≤ k)
    (ho : s.demand.cars[k - 1]? = some o) : s.outputOf k = o := by
  simp [State.outputOf, ho, Nat.ne_of_gt hk]

/-- Settles O54: the entry that is servable, and what starting its frame sets. -/
theorem planEntryIsServed : Obligations.PlanEntryIsServed := by
  refine ⟨fun s hr hnone => exec_planEntryServed_none hr ?_,
    fun s k e c car d p o hr hidle hex hpass hk he hc hcar1 hcar hd hp ho => ?_⟩
  · rcases hnone with h | h | h
    · exact servable_of_not_free fun hf => h ((free_iff _).1 hf).1
    · refine servable_of_not_free fun hf => ?_
      rw [((free_iff _).1 hf).2] at h
      exact nomatch h
    · exact servable_of_no_entry (nextEntry_eq_none h)
  · have hplace : s.carPositionOf s.position.snapshot.lead e.car = some p := by
      rw [carPositionOf_eq _ hcar1 hc hcar, carPosition_eq, effective_eq, ← hd, ← hp]
    have hservable : s.servable = some (k, e, car, p) := by
      simp [State.servable, (free_iff _).2 ⟨hidle, hex⟩, nextEntry_eq_some hpass hk he,
        car?_of_getElem? hcar1 hc hcar, hplace]
    have hout : s.outputOf e.car = o := outputOf_of_getElem? hcar1 ho
    refine ⟨_, s.frameFlags e.car p e.span, s.frameValues e.car p e.span, exec_planEntryServed_some hr hservable,
      LinkKept.refl s, ((KeptBut.refl _ s).setDemand _ (by simp)).setPoll _ (by simp), rfl, rfl, decide_eq_true_iff,
      decide_eq_true_iff, decide_eq_true_iff, out_iff _, ?_, ?_, List.any_eq_true, putCar_keeps_rest hcar1 _,
      fun j => putCar_other hcar1 _, putCar_same hcar1 _ ho⟩
    · exact congrArg (·.changed.latched) hout
    · exact congrArg (·.fixed.latched) hout

/-! ### The bytes of a frame -/

theorem tbusFrameBytes_eq {s : State} {f : TiltFrame} (h : s.poll.frame = some f) : s.tbusFrameBytes = some f.bytes := by
  rw [State.tbusFrameBytes, h]
  rfl

/-- Settles O56: the bytes of each frame, with the bits of the flags byte and the two bytes of each value. -/
theorem tiltFramesAreLaidOut : Obligations.TiltFramesAreLaidOut := by
  refine ⟨fun s h => ?_, fun s address body h hbody => ?_, fun s address flags values h hvalues => ?_⟩
  · rw [State.tbusFrameBytes, h]
    rfl
  · subst hbody
    exact tbusFrameBytes_eq h
  · obtain ⟨hlength, hfields⟩ := signedBytes_flatMap values
    obtain ⟨h0, h1, h2, h3, h4, h5, h6, h7⟩ := flagsByte_bits flags
    refine ⟨flags.byte, values.flatMap signedBytes, _, tbusFrameBytes_eq h, rfl, h0, h1, h2, h3, h4, h5, h6, h7, hlength,
      fun j v hv => ?_⟩
    obtain ⟨hlow, hhigh⟩ := hfields j v hv
    refine ⟨_, _, hlow, hhigh, ?_⟩
    rw [word_of_bytes]
    exact signed_word v (hvalues v (List.mem_of_getElem? hv))

end Sys2Proof.Machine
end

section
/-! PROOFS. The rows that take a reply or its absence. -/

namespace Sys2Proof.Machine

/-! ### The exchange that a row finds -/

section
variable {p : PollEngine} {e : Exchange}

theorem awaitingExchange_eq (hp : p.phase = .awaiting) (he : p.exchange = some e) : p.awaitingExchange = some e :=
  (if_pos hp).trans he

theorem awaitingExchange_none (hp : p.phase ≠ .awaiting) : p.awaitingExchange = none := if_neg hp

theorem receivingExchange_eq (hp : p.phase = .receiving) (he : p.exchange = some e) : p.receivingExchange = some e :=
  (if_pos hp).trans he

theorem receivingExchange_none (hp : p.phase ≠ .receiving) : p.receivingExchange = none := if_neg hp

theorem lastComing_iff : e.lastComing = true ↔ e.kind.replyLength ≤ e.received.length + 1 := decide_eq_true_iff

end

/-! ### The rows -/

section
variable {s : State} {e : Exchange} (hr : s.resetHeld = false)
include hr

theorem exec_replyTimeout (h : s.poll.awaitingExchange = some e) :
    exec .replyTimeout s = .next (s.takeOutcome e .timeout none) := by
  simp [exec, execReplyTimeout, unlessHeld, hr, h]

theorem exec_replyTimeout_none (h : s.poll.awaitingExchange = none) : exec .replyTimeout s = .next s := by
  simp [exec, execReplyTimeout, unlessHeld, hr, h]

/-- A byte before the last is added (R123). -/
theorem exec_replyByteTaken_adds (h : s.poll.receivingExchange = some e) (hl : e.lastComing = false) (b : Byte)
    (ok : Bool) :
    exec (.replyByteTaken b ok) s = .next (s.setPoll { s.poll with exchange := some (e.add b ok) }) := by
  simp [exec, execReplyByteTaken, State.replyByte, unlessHeld, hr, h, hl]

/-- The last byte completes the reply in either row (R123; log 10). -/
theorem exec_lastReplyByte (h : s.poll.receivingExchange = some e) (hl : e.lastComing = true) {b : Byte} {ok : Bool}
    {i : Instr} (hi : i = .replyByteTaken b ok ∨ i = .replyReceived b ok) :
    exec i s = .next (s.takeReply (e.add b ok)) := by
  rcases hi with rfl | rfl
  · simp [exec, execReplyByteTaken, State.replyByte, unlessHeld, hr, h, hl]
  · simp [exec, execReplyReceived, unlessHeld, hr, h, hl]

theorem exec_replyByteTaken_none (h : s.poll.receivingExchange = none) (b : Byte) (ok : Bool) :
    exec (.replyByteTaken b ok) s = .next s := by
  simp [exec, execReplyByteTaken, unlessHeld, hr, h]

theorem exec_replyReceived_none (h : s.poll.receivingExchange = none) (b : Byte) (ok : Bool) :
    exec (.replyReceived b ok) s = .next s := by
  simp [exec, execReplyReceived, unlessHeld, hr, h]

theorem exec_replyCutShort (h : s.poll.receivingExchange = some e) (hne : e.received ≠ []) :
    exec .replyCutShort s = .next (s.takeReply e) := by
  simp [exec, execReplyCutShort, unlessHeld, hr, h, hne]

theorem exec_replyCutShort_none (h : s.poll.receivingExchange = none) : exec .replyCutShort s = .next s := by
  simp [exec, execReplyCutShort, unlessHeld, hr, h]

end

/-! ### The reply judged -/

theorem judgeReply_short {e : Exchange} (h : e.received.length < e.kind.replyLength) : judgeReply e = none := if_pos h

/-- The outcome that is taken is that of the reply's condition (R124, R125). -/
theorem takeReply_outcomeTaken (s : State) (e : Exchange) (hcar : 1 ≤ e.car) :
    OutcomeTaken s (s.takeReply e) e (replyOutcome (judgeReply e)) (judgeReply e) := by
  refine takeOutcome_spec s e _ _ hcar fun _ _ => ?_
  cases judgeReply e <;> rfl

/-- Settles O57: each row by the exchange it finds in its phase, and the outcome it takes. -/
theorem repliesEndTheExchange : Obligations.RepliesEndTheExchange := by
  refine ⟨fun s e hr hex hcar => ⟨fun hphase => ?_, fun hphase => ?_⟩, fun s b ok hr => ⟨fun hphase => ?_, fun hphase => ?_⟩⟩
  · exact ⟨_, exec_replyTimeout hr (awaitingExchange_eq hphase hex), takeOutcome_spec s e _ _ hcar nofun⟩
  · have he := receivingExchange_eq hphase hex
    refine ⟨fun b ok hlen => ?_, fun b ok i full hlen hi hfull => ?_, fun hne hlen => ?_⟩
    · have hl : e.lastComing = false := by
        rw [← Bool.not_eq_true, lastComing_iff]
        omega
      exact ⟨_, exec_replyByteTaken_adds hr he hl b ok, LinkKept.refl s, (KeptBut.refl _ s).setPoll _ (by simp), rfl⟩
    · subst hfull
      have hl : e.lastComing = true := lastComing_iff.2 (Nat.le_of_eq hlen.symm)
      exact ⟨_, _, _, exec_lastReplyByte hr he hl hi, judgeReply_spec (e.add b ok),
        takeReply_outcomeTaken s (e.add b ok) hcar⟩
    · have htaken := takeReply_outcomeTaken s e hcar
      rw [judgeReply_short hlen] at htaken
      exact ⟨_, exec_replyCutShort hr he hne, htaken⟩
  · exact exec_replyTimeout_none hr (awaitingExchange_none hphase)
  · have hnone := receivingExchange_none hphase
    exact ⟨exec_replyByteTaken_none hr hnone b ok, exec_replyReceived_none hr hnone b ok,
      exec_replyCutShort_none hr hnone⟩

end Sys2Proof.Machine
end

section
/-! PROOFS. Every step keeps the exchange in flight, the bus phase, the manual slot and the pass in step with each
other. -/

namespace Sys2Proof.Machine

/-! ### The Poll Engine in step -/

/-- What `State.busSound` says, of the Poll Engine alone. -/
def PollEngine.inStep (p : PollEngine) : Prop :=
  (p.exchange.isSome ↔ p.phase = .sending ∨ p.phase = .awaiting ∨ p.phase = .receiving)
    ∧ (∀ e, p.exchange = some e → e.received.length < e.kind.replyLength
        ∧ (e.origin = .plan → e.kind = .setpoint)
        ∧ (e.origin = .manual → e.kind = .inquiry ∧ p.manual = .inFlight e.car))
    ∧ (∀ k, p.manual = .inFlight k → ∃ e, p.exchange = some e ∧ e.origin = .manual ∧ e.car = k)
    ∧ (∀ k, p.pass = some k → 1 ≤ k ∧ k ≤ p.active.length + 1
        ∧ (k = p.active.length + 1 → ∃ e, p.exchange = some e ∧ e.origin = .plan))

theorem busSound_iff (s : State) : s.busSound ↔ s.poll.inStep := Iff.rfl

theorem powerOn_inStep : PollEngine.powerOn.inStep := (busSound_iff _).1 reset_busSound

/-! ### What a row finds before it starts a frame -/

theorem replyLength_pos (kind : FrameKind) : 0 < kind.replyLength := by cases kind <;> decide

/-- The entry a pass serves next is one of the active plan (R139). -/
theorem nextEntry_bounds {p : PollEngine} {k : Nat} {e : PlanEntry} (h : p.nextEntry = some (k, e)) :
    1 ≤ k ∧ k ≤ p.active.length := by
  unfold PollEngine.nextEntry at h
  split at h
  · exact nomatch h
  · obtain ⟨hk, h⟩ := Option.ite_none_left_eq_some.1 h
    obtain ⟨_, hentry, heq⟩ := Option.map_eq_some_iff.1 h
    obtain ⟨rfl, _⟩ := Prod.mk.inj heq
    obtain ⟨hlt, _⟩ := List.getElem?_eq_some_iff.1 hentry
    omega

theorem servable_bounds {s : State} {k : Nat} {e : PlanEntry} {car : Car} {p : Int}
    (h : s.servable = some (k, e, car, p)) : s.poll.exchange = none ∧ 1 ≤ k ∧ k ≤ s.poll.active.length := by
  unfold State.servable at h
  obtain ⟨hfree, h⟩ := Option.ite_none_right_eq_some.1 h
  obtain ⟨_, hnone⟩ := (free_iff _).1 hfree
  split at h
  · exact nomatch h
  · rename_i hnext
    split at h
    · cases h
      exact ⟨hnone, nextEntry_bounds hnext⟩
    · exact nomatch h
    · exact nomatch h

/-- An inquiry starts only while no pass is in progress and the bus is free (R144). -/
theorem startableRequest_free {s : State} {r : Nat × Car} (h : s.startableRequest = some r) :
    s.poll.phase = .idle ∧ s.poll.exchange = none ∧ s.poll.pass = none := by
  unfold State.startableRequest at h
  obtain ⟨hcond, _⟩ := Option.ite_none_right_eq_some.1 h
  obtain ⟨hfree, hpass⟩ := Bool.and_eq_true_iff.1 hcond
  obtain ⟨hidle, hnone⟩ := (free_iff _).1 hfree
  exact ⟨hidle, hnone, Option.isNone_iff_eq_none.1 hpass⟩

/-! ### The exchanges that STOP and SETCOMP leave in flight -/

theorem stopped_manual_inFlight (p : PollEngine) (k : Nat) :
    p.stopped.manual = .inFlight k ↔ p.manual = .inFlight k := by
  cases hm : p.manual <;> simp [PollEngine.stopped, hm]

theorem recomposed_manual_inFlight (p : PollEngine) (k : Nat) :
    p.recomposed.manual = .inFlight k ↔ p.manual = .inFlight k := by
  cases hm : p.manual <;> simp [PollEngine.recomposed, hm]

/-! ### The changes of the Poll Engine -/

/-- The inquiry of a manual request, which is then IN_FLIGHT, outside any pass (R144). -/
theorem inStep_inquiry {p : PollEngine} (hnopass : p.pass = none) (car address timeout : Nat) (f : TiltFrame) :
    ({ p.startFrame (newExchange .manual car address timeout .inquiry) f with
      manual := .inFlight car } : PollEngine).inStep := by
  refine ⟨iff_of_true rfl (Or.inl rfl), fun e he => ?_, fun k hk => ?_, fun k hk => nomatch hnopass.symm.trans hk⟩
  · obtain rfl := Option.some.inj he
    exact ⟨replyLength_pos _, nofun, fun _ => ⟨rfl, rfl⟩⟩
  · exact ⟨_, rfl, rfl, ManualSlot.inFlight.inj hk⟩

/-- A software reset aborts the exchange, and empties the plans and the manual slot (R130, R132, R149). -/
theorem inStep_softReset (p : PollEngine) : p.softReset.inStep :=
  ⟨iff_of_false nofun (by simp [PollEngine.softReset]), nofun, nofun, nofun⟩

section
variable {p : PollEngine} (h : p.inStep)
include h

/-- A manual slot IN_FLIGHT has its exchange in flight. -/
theorem manual_ne_inFlight (hnone : p.exchange = none) (k : Nat) : p.manual ≠ .inFlight k := by
  intro hk
  obtain ⟨_, _, hmanual, _⟩ := h
  obtain ⟨e, he, _⟩ := hmanual k hk
  exact nomatch hnone.symm.trans he

/-- The bus goes from one phase of an exchange to another, or from SETTLING to IDLE (R122, R127). -/
theorem inStep_setPhase {x : BusPhase} (hx : (p.phase = .sending ∨ p.phase = .awaiting ∨ p.phase = .receiving)
    ↔ (x = .sending ∨ x = .awaiting ∨ x = .receiving)) : ({ p with phase := x } : PollEngine).inStep := by
  obtain ⟨hphase, hrest⟩ := h
  exact ⟨hphase.trans hx, hrest⟩

/-- The exchange in flight changed to one for the same car, whose reply is not complete either. -/
theorem inStep_mapExchange (f : Exchange → Exchange)
    (hf : ∀ e, p.exchange = some e → (f e).origin = e.origin ∧ (f e).car = e.car ∧ (f e).kind = e.kind
      ∧ (f e).received.length < e.kind.replyLength) :
    ({ p with exchange := p.exchange.map f } : PollEngine).inStep := by
  obtain ⟨hphase, hexchange, hmanual, hpass⟩ := h
  have hmapped : ∀ e, p.exchange = some e → p.exchange.map f = some (f e) := fun e he => by rw [he]; rfl
  refine ⟨by rw [Option.isSome_map]; exact hphase, fun e' he' => ?_, fun k hk => ?_, fun k hk => ?_⟩
  · obtain ⟨e, he, rfl⟩ := Option.map_eq_some_iff.1 he'
    obtain ⟨horigin, hcar, hkind, hlength⟩ := hf e he
    obtain ⟨_, hrest⟩ := hexchange e he
    rw [horigin, hcar, hkind]
    exact ⟨hlength, hrest⟩
  · obtain ⟨e, he, ho, hc⟩ := hmanual k hk
    obtain ⟨horigin, hcar, _⟩ := hf e he
    exact ⟨f e, hmapped e he, horigin.trans ho, hcar.trans hc⟩
  · obtain ⟨hlow, hhigh, hlast⟩ := hpass k hk
    refine ⟨hlow, hhigh, fun hk' => ?_⟩
    obtain ⟨e, he, ho⟩ := hlast hk'
    obtain ⟨horigin, _⟩ := hf e he
    exact ⟨f e, hmapped e he, horigin.trans ho⟩

/-- The exchange in flight left as it is, with another plan or pass and another request that is not IN_FLIGHT. -/
theorem inStep_of_sameExchange {q : PollEngine} (hsame : q.phase = p.phase) (hex : q.exchange = p.exchange)
    (hslot : ∀ k, q.manual = .inFlight k ↔ p.manual = .inFlight k)
    (hq : ∀ k, q.pass = some k → 1 ≤ k ∧ k ≤ q.active.length + 1
      ∧ (k = q.active.length + 1 → ∃ e, q.exchange = some e ∧ e.origin = .plan)) : q.inStep := by
  obtain ⟨hphase, hexchange, hmanual, _⟩ := h
  refine ⟨by rw [hex, hsame]; exact hphase, fun e he => ?_, fun k hk => ?_, hq⟩
  · obtain ⟨hlength, hplan, hinquiry⟩ := hexchange e (hex ▸ he)
    exact ⟨hlength, hplan, fun ho => (hinquiry ho).imp_right (hslot e.car).2⟩
  · rw [hex]
    exact hmanual k ((hslot k).1 hk)

/-- A byte before the last leaves the reply incomplete (R123). -/
theorem inStep_addByte {e : Exchange} (he : p.exchange = some e) (hl : e.lastComing = false) (b : Byte) (ok : Bool) :
    ({ p with exchange := some (e.add b ok) } : PollEngine).inStep := by
  have hmap : some (e.add b ok) = p.exchange.map (·.add b ok) := by rw [he]; rfl
  rw [hmap]
  refine inStep_mapExchange h _ fun e' he' => ⟨rfl, rfl, rfl, ?_⟩
  obtain rfl : e = e' := Option.some.inj (he.symm.trans he')
  have hlen : ¬ e.kind.replyLength ≤ e.received.length + 1 := by rw [← lastComing_iff, hl]; decide
  simpa [Exchange.add] using hlen

theorem inStep_stopped : p.stopped.inStep :=
  inStep_of_sameExchange h rfl rfl (stopped_manual_inFlight p) nofun

/-- SETCOMP empties the active plan, which no pass may then be in (R88, R89). -/
theorem inStep_recomposed (hnopass : p.pass = none) : p.recomposed.inStep := by
  obtain ⟨_, hexchange, _⟩ := id h
  refine inStep_of_sameExchange (inStep_mapExchange h (fun e => { e with voided := true }) fun e he => ?_) rfl rfl
    (recomposed_manual_inFlight p) fun k hk => nomatch hnopass.symm.trans hk
  obtain ⟨hlength, _⟩ := hexchange e he
  exact ⟨rfl, rfl, rfl, hlength⟩

/-- The manual slot emptied or made WAITING, where nothing was IN_FLIGHT for it (R143, R145). -/
theorem inStep_setManual {m : ManualSlot} (hp : ∀ k, p.manual ≠ .inFlight k) (hm : ∀ k, m ≠ .inFlight k) :
    ({ p with manual := m } : PollEngine).inStep := by
  obtain ⟨_, _, _, hpass⟩ := id h
  exact inStep_of_sameExchange h rfl rfl (fun k => iff_of_false (hm k) (hp k)) hpass

/-- A new pass begins at the first entry of a plan that has one (R138). -/
theorem inStep_fence : p.fence.inStep := by
  refine inStep_of_sameExchange h rfl rfl (fun _ => Iff.rfl) fun k hk => ?_
  change (if p.swapped = [] then none else some 1) = some k at hk
  obtain ⟨hne, hk⟩ := Option.ite_none_left_eq_some.1 hk
  obtain rfl : 1 = k := Option.some.inj hk
  have hlen : 0 < p.fence.active.length := List.length_pos_iff.2 hne
  exact ⟨Nat.le_refl 1, by omega, fun hlast => by omega⟩

/-- The frame of the entry a pass serves next: after the last entry its exchange is in flight (R139). -/
theorem inStep_serve (hnone : p.exchange = none) {k : Nat} (hk : k ≤ p.active.length) (car address timeout : Nat)
    (f : TiltFrame) : ({ p.startFrame (newExchange .plan car address timeout .setpoint) f with
      pass := some (k + 1) } : PollEngine).inStep := by
  refine ⟨iff_of_true rfl (Or.inl rfl), fun e he => ?_, fun j hj => ?_, fun j hj => ?_⟩
  · obtain rfl := Option.some.inj he
    exact ⟨replyLength_pos _, fun _ => rfl, nofun⟩
  · exact absurd hj (manual_ne_inFlight h hnone j)
  · obtain rfl := Option.some.inj hj
    exact ⟨by omega, Nat.succ_le_succ hk, fun _ => ⟨_, rfl, rfl⟩⟩

/-- The end of an exchange ends what it was in flight for: the manual request, or the pass after its last entry (R126,
R139, R144). -/
theorem inStep_endExchange {e e' : Exchange} (he' : p.exchange = some e') (ho : e'.origin = e.origin) :
    (p.endExchange e).inStep := by
  obtain ⟨_, _, hmanual, hpass⟩ := h
  refine ⟨iff_of_false nofun (by simp [PollEngine.endExchange]), nofun, fun k hk => ?_, fun k hk => ?_⟩
  · change (if e.origin = .manual then .empty else p.manual) = ManualSlot.inFlight k at hk
    split at hk
    · exact nomatch hk
    · rename_i hne
      obtain ⟨d, hd, hdo, _⟩ := hmanual k hk
      obtain rfl : e' = d := Option.some.inj (he'.symm.trans hd)
      exact absurd (ho.symm.trans hdo) hne
  · obtain ⟨hleft, hk⟩ := Option.ite_none_left_eq_some.1 hk
    obtain ⟨hlow, hhigh, hlast⟩ := hpass k hk
    have hwithin : k ≠ p.active.length + 1 := by
      intro hk'
      obtain ⟨d, hd, hdo⟩ := hlast hk'
      obtain rfl : e' = d := Option.some.inj (he'.symm.trans hd)
      exact hleft ⟨ho.symm.trans hdo, by simp [hk, hk']⟩
    exact ⟨hlow, hhigh, fun hk' => absurd hk' hwithin⟩

end

/-! ### The rows -/

theorem markerByte_poll (s : State) (b : Byte) (ok : Bool) : (s.markerByte b ok).poll = s.poll := by
  unfold State.markerByte State.takeMessage State.judgeFix
  split
  · split <;> rfl
  · split
    · split
      · split
        · rfl
        · split
          · rfl
          · split <;> rfl
      · rfl
    · rfl

theorem takeOutcome_inStep {s : State} (h : s.poll.inStep) {e e' : Exchange} (he' : s.poll.exchange = some e')
    (ho : e'.origin = e.origin) (o : ExchangeOutcome) (r : Option Reply) : (s.takeOutcome e o r).poll.inStep := by
  have hended := inStep_endExchange h he' ho
  unfold State.takeOutcome State.applyOutcome
  simp only
  split
  · exact hended
  · split
    · exact hended
    · exact hended

/-- Every change of state that a row can make keeps the Poll Engine in step. That no pass stands in CONFIG is what
SETCOMP, which empties the active plan, rests on. -/
theorem keeps_modeSound_inStep : Keeps fun s => s.modeSound ∧ s.poll.inStep where
  start := fun u ⟨hs, h⟩ hm => ⟨keeps_modeSound.start u hs hm, by unfold actStart; split <;> exact h⟩
  run := fun u ⟨hs, h⟩ hm => ⟨keeps_modeSound.run u hs hm, by unfold actRun; split <;> exact h⟩
  stby := fun u ⟨hs, h⟩ hm => ⟨keeps_modeSound.stby u hs hm, by unfold actStby; split <;> exact h⟩
  hold := fun u d ⟨hs, h⟩ hm => ⟨keeps_modeSound.hold u d hs hm, by unfold actHold; split <;> exact h⟩
  stop := fun u ⟨hs, h⟩ hm => by
    refine ⟨keeps_modeSound.stop u hs hm, ?_⟩
    unfold actStop
    split
    · exact h
    · exact inStep_stopped h
  reset := fun u ⟨hs, h⟩ => ⟨keeps_modeSound.reset u hs, h⟩
  setcal := fun u n ⟨hs, h⟩ => ⟨keeps_modeSound.setcal u n hs, by unfold actSetcal; split <;> exact h⟩
  setpos := fun u p ⟨hs, h⟩ => ⟨keeps_modeSound.setpos u p hs, h⟩
  setfix := fun u f ⟨hs, h⟩ => by
    refine ⟨keeps_modeSound.setfix u f hs, ?_⟩
    unfold actSetfix
    split
    · exact h
    · simp only [CommandResult.done]
      rw [checkInterval_poll]
      exact h
  openr := fun u f ⟨hs, h⟩ hm => ⟨keeps_modeSound.openr u f hs hm, by unfold actOpenr; split <;> exact h⟩
  putp := fun u vs ⟨hs, h⟩ hm =>
    ⟨keeps_modeSound.putp u vs hs hm, by unfold actWrite; split; exact h; split <;> exact h⟩
  contp := fun u vs ⟨hs, h⟩ hm =>
    ⟨keeps_modeSound.contp u vs hs hm, by unfold actWrite; split; exact h; split <;> exact h⟩
  closer := fun u ⟨hs, h⟩ hm =>
    ⟨keeps_modeSound.closer u hs hm, by unfold actCloser; split; exact h; split <;> exact h⟩
  abandr := fun u ⟨hs, h⟩ hm => ⟨keeps_modeSound.abandr u hs hm, by unfold actAbandr; split <;> exact h⟩
  wdraw := fun u f ⟨hs, h⟩ hm =>
    ⟨keeps_modeSound.wdraw u f hs hm, by unfold actWdraw; split; exact h; split <;> exact h⟩
  wdsect := fun u f ⟨hs, h⟩ hm => ⟨keeps_modeSound.wdsect u f hs hm, by unfold actWdsect; split <;> exact h⟩
  clrtab := fun u ⟨hs, h⟩ hm => ⟨keeps_modeSound.clrtab u hs hm, h⟩
  rdrec := fun u f ⟨hs, h⟩ => ⟨keeps_modeSound.rdrec u f hs, by
    unfold actRdrec State.readSlot; split; exact h; split; exact h; split <;> exact h⟩
  rdslot := fun u f ⟨hs, h⟩ => ⟨keeps_modeSound.rdslot u f hs, by
    unfold actRdslot State.readSlot; split; exact h; split; exact h; split <;> exact h⟩
  tsum := fun u ⟨hs, h⟩ => ⟨keeps_modeSound.tsum u hs, h⟩
  cover := fun u p ⟨hs, h⟩ hm => ⟨keeps_modeSound.cover u p hs hm, by unfold actCover; split <;> exact h⟩
  setcyc := fun u f ⟨hs, h⟩ => ⟨keeps_modeSound.setcyc u f hs, by unfold actSetcyc; split <;> exact h⟩
  setcomp := fun u p ⟨hs, h⟩ hm => by
    refine ⟨keeps_modeSound.setcomp u p hs hm, ?_⟩
    have hnopass : u.poll.pass = none := Option.eq_none_iff_forall_ne_some.2 fun _ hp => ne_config_of_pass hs hp hm
    unfold actSetcomp
    split
    · exact h
    · exact inStep_recomposed h hnopass
  settrav := fun u f ⟨hs, h⟩ hm => ⟨keeps_modeSound.settrav u f hs hm, by unfold actSettrav; split <;> exact h⟩
  setlim := fun u f ⟨hs, h⟩ hm => ⟨keeps_modeSound.setlim u f hs hm, by unfold actSetlim; split <;> exact h⟩
  setbus := fun u n ⟨hs, h⟩ =>
    ⟨keeps_modeSound.setbus u n hs, by unfold actSetbus; split; exact h; split <;> exact h⟩
  ldplan := fun u p ⟨hs, h⟩ => ⟨keeps_modeSound.ldplan u p hs, by unfold actLdplan; split <;> exact h⟩
  canplan := fun u ⟨hs, h⟩ => by
    refine ⟨keeps_modeSound.canplan u hs, ?_⟩
    unfold actCanplan
    split
    · exact h
    · exact inStep_of_sameExchange h rfl rfl (fun _ => Iff.rfl) nofun
  canstby := fun u ⟨hs, h⟩ => ⟨keeps_modeSound.canstby u hs, by unfold actCanstby; split <;> exact h⟩
  xchg := fun u k ⟨hs, h⟩ hm => by
    refine ⟨keeps_modeSound.xchg u k hs hm, ?_⟩
    unfold actXchg
    split
    · exact h
    · exact h
    · rename_i hempty
      split
      · exact h
      · exact inStep_setManual h (by simp [hempty]) nofun
  canxchg := fun u ⟨hs, h⟩ => by
    refine ⟨keeps_modeSound.canxchg u hs, ?_⟩
    unfold actCanxchg
    split
    · rename_i hwaiting
      exact inStep_setManual h (by simp [hwaiting]) nofun
    · exact h
    · exact h
  rdxchg := fun u ⟨hs, h⟩ => ⟨keeps_modeSound.rdxchg u hs, by unfold actRdxchg; split <;> exact h⟩
  restore := fun u k ⟨hs, h⟩ hm =>
    ⟨keeps_modeSound.restore u k hs hm, by unfold actRestore; split; exact h; split <;> exact h⟩
  pulse := fun u d ⟨hs, h⟩ => ⟨keeps_modeSound.pulse u d hs, by rw [checkHold_poll, checkInterval_poll]; exact h⟩
  interval := fun u ⟨hs, h⟩ => ⟨keeps_modeSound.interval u hs, by rwa [checkInterval_poll]⟩
  holdx := fun u ⟨hs, h⟩ => ⟨keeps_modeSound.holdx u hs, by rwa [checkHold_poll]⟩
  strobe := fun u ⟨hs, h⟩ => ⟨keeps_modeSound.strobe u hs, h⟩
  mbyte := fun u b ok ⟨hs, h⟩ => ⟨keeps_modeSound.mbyte u b ok hs, by rwa [markerByte_poll]⟩
  cut := fun u ⟨hs, h⟩ => ⟨keeps_modeSound.cut u hs, h⟩
  fence := fun u ⟨hs, h⟩ hr => ⟨keeps_modeSound.fence u hs hr, inStep_fence h⟩
  serve := fun u k e car p ⟨hs, h⟩ hservable =>
    let ⟨hnone, _, hk⟩ := servable_bounds hservable
    ⟨keeps_modeSound.serve u k e car p hs hservable, inStep_serve h hnone hk _ _ _ _⟩
  inquiry := fun u k car ⟨hs, _⟩ hstart =>
    let ⟨_, _, hnopass⟩ := startableRequest_free hstart
    ⟨keeps_modeSound.inquiry u k car hs hstart, inStep_inquiry hnopass _ _ _ _⟩
  sent := fun u ⟨hs, h⟩ hp => ⟨keeps_modeSound.sent u hs hp, inStep_setPhase h (by simp [hp])⟩
  sbit := fun u ⟨hs, h⟩ hp => ⟨keeps_modeSound.sbit u hs hp, inStep_setPhase h (by simp [hp])⟩
  rbyte := fun u e b ok ⟨hs, h⟩ hp he hl =>
    ⟨keeps_modeSound.rbyte u e b ok hs hp he hl, inStep_addByte h he hl b ok⟩
  outcome := fun u e o r ⟨hs, h⟩ hflight =>
    let ⟨_, he', ho, _⟩ := hflight
    ⟨keeps_modeSound.outcome u e o r hs hflight, takeOutcome_inStep h he' ho o r⟩
  settled := fun u ⟨hs, h⟩ hp => ⟨keeps_modeSound.settled u hs hp, inStep_setPhase h (by simp [hp])⟩
  answered := fun u ⟨hs, h⟩ => ⟨keeps_modeSound.answered u hs, h⟩
  soft := fun u ⟨hs, _⟩ => ⟨keeps_modeSound.soft u hs, inStep_softReset _⟩
  pin := fun u st ⟨hs, _⟩ => ⟨keeps_modeSound.pin u st hs, powerOn_inStep⟩
  pow := fun u st ⟨hs, _⟩ => ⟨keeps_modeSound.pow u st hs, powerOn_inStep⟩
  rel := fun u ⟨hs, h⟩ => ⟨keeps_modeSound.rel u hs, h⟩

/-- Settles O15: each change of state that a row can make keeps the Poll Engine in step, together with what the modes
promise, and the port does not bear on either. -/
theorem busStaysInStep : Obligations.BusStaysInStep := by
  intro s t hs h hstep
  obtain ⟨_, hkept⟩ := step_keeps (P := fun s => s.modeSound ∧ s.poll.inStep) (fun _ _ h => h)
    (exec_keeps keeps_modeSound_inStep fun _ _ h => h) s t ⟨hs, (busSound_iff s).1 h⟩ hstep
  exact (busSound_iff t).2 hkept

end Sys2Proof.Machine
end

section
/-! PROOFS. SETCYC and SETBUS. -/

namespace Sys2Proof.Machine

/-! ### The parts a change leaves -/

theorem KeptBut.setTimer {named : List Block} {s u : State} (h : KeptBut named s u) (x : CycleTimer)
    (hb : Block.timer ∈ named) : KeptBut named s (u.setTimer x) := by
  obtain ⟨hk, h1, h2, h3⟩ := h
  refine ⟨fun b => ?_, h1, h2, h3⟩
  cases b
  case timer => exact Or.inl hb
  all_goals exact hk _

/-! ### SETCYC -/

/-- The parameters that SETCYC refuses (R70). -/
theorem actSetcyc_badParam {f : CycleFields}
    (h : ¬ (10 ≤ f.period ∧ f.period ≤ 40 ∧ (f.horizon = 0 ∨ 100 ≤ f.horizon ∧ f.horizon ≤ 20000))) (s : State) :
    actSetcyc f s = .refuse s .badParam := if_pos (by omega)

theorem actSetcyc_done {f : CycleFields}
    (h : 10 ≤ f.period ∧ f.period ≤ 40 ∧ (f.horizon = 0 ∨ 100 ≤ f.horizon ∧ f.horizon ≤ 20000)) (s : State) :
    actSetcyc f s = .done ((s.setTimer { s.timer with period := f.period }).setTable
      { s.table with horizonSetting := f.horizon }) := if_neg (by omega)

/-! ### SETBUS -/

theorem timeoutOk_iff (n : Nat) : timeoutOk n = true ↔ 100 ≤ n ∧ n ≤ 800 ∧ n % 100 = 0 := decide_eq_true_iff

theorem actSetbus_sets {n : Nat} (h : 100 ≤ n ∧ n ≤ 800 ∧ n % 100 = 0) (s : State) : actSetbus n s =
    { state := s.setPoll { s.poll with replyTimeout := n }, result := .done, payload := .bus n s.straps.trate } :=
  if_pos ((timeoutOk_iff n).2 h)

theorem actSetbus_reads (s : State) : actSetbus 0 s =
    { state := s, result := .done, payload := .bus s.poll.replyTimeout s.straps.trate } := rfl

theorem actSetbus_badParam {n : Nat} (h0 : n ≠ 0) (h : ¬ (100 ≤ n ∧ n ≤ 800 ∧ n % 100 = 0)) (s : State) :
    actSetbus n s = .refuse s .badParam :=
  (if_neg fun hok => h ((timeoutOk_iff n).1 hok)).trans (if_neg h0)

/-- Settles O43: the branches of the two acts, which every mode allows. -/
theorem cycleAndBusSettingsAreReplaced : Obligations.CycleAndBusSettingsAreReplaced := by
  refine ⟨fun s period horizon i ok hs hi hok => ?_, fun s n hs => ⟨fun hn => ?_, fun hn => ?_, fun h0 hn => ?_⟩⟩
  · subst hi
    refine ⟨fun hbad => ?_, fun hgood => ?_⟩
    · exact runCommand_answers_unchanged (owner := actSetcyc _) hs rfl rfl
        (actSetcyc_badParam (fun h => hbad (hok.2 h)) _)
    · exact runCommand_answers (owner := actSetcyc _) _ hs rfl rfl (actSetcyc_done (hok.1 hgood) _)
        (LinkKept.refl (s.admitted .setcyc))
        (((KeptBut.refl _ (s.admitted .setcyc)).setTimer _ (by simp)).setTable _ (by simp)) ⟨rfl, rfl⟩
  · exact runCommand_answers (owner := actSetbus n) _ hs rfl rfl (actSetbus_sets hn _)
      (LinkKept.refl (s.admitted .setbus)) ((KeptBut.refl _ (s.admitted .setbus)).setPoll _ (by simp)) rfl
  · subst hn
    exact runCommand_answers_unchanged (owner := actSetbus 0) hs rfl rfl (actSetbus_reads _)
  · exact runCommand_answers_unchanged (owner := actSetbus n) hs rfl rfl (actSetbus_badParam h0 hn _)

end Sys2Proof.Machine
end

section
/-! PROOFS. The rows that start an inquiry and move the bus phase. -/

namespace Sys2Proof.Machine

/-! ### The request that may start -/

/-- No request starts while the bus is taken, in a pass, or where none is WAITING (R144). -/
theorem startableRequest_eq_none {s : State} (h : s.poll.phase ≠ .idle ∨ s.poll.exchange.isSome ∨ s.poll.pass.isSome
    ∨ ∀ k, s.poll.manual ≠ .waiting k) : s.startableRequest = none := by
  refine Option.eq_none_iff_forall_ne_some.2 fun r hr => ?_
  obtain ⟨hidle, hnone, hnopass⟩ := startableRequest_free hr
  rcases h with h | h | h | h
  · exact h hidle
  · exact nomatch hnone ▸ h
  · exact nomatch hnopass ▸ h
  · exact h r.1 (startableRequest_waiting hr)

theorem startableRequest_eq_some {s : State} {k : Nat} {c : Composition} {car : Car} (hidle : s.poll.phase = .idle)
    (hnone : s.poll.exchange = none) (hnopass : s.poll.pass = none) (hwaiting : s.poll.manual = .waiting k)
    (hk : 1 ≤ k) (hc : s.demand.composition = some c) (hcar : c.cars[k - 1]? = some car) :
    s.startableRequest = some (k, car) := by
  simp [State.startableRequest, (free_iff _).2 ⟨hidle, hnone⟩, hnopass, hwaiting, ManualSlot.waitingCar,
    car?_of_getElem? hk hc hcar]

/-! ### The rows -/

section
variable {s : State} (hr : s.resetHeld = false)
include hr

theorem exec_manualExchangeStart_none (h : s.startableRequest = none) : exec .manualExchangeStart s = .next s := by
  simp [exec, execManualExchangeStart, unlessHeld, hr, h]

theorem exec_manualExchangeStart_some {k : Nat} {car : Car} (h : s.startableRequest = some (k, car)) :
    exec .manualExchangeStart s = .next (s.startInquiry k car.address) := by
  simp [exec, execManualExchangeStart, unlessHeld, hr, h]

theorem exec_frameSent : exec .frameSent s =
    .next (if s.poll.phase = .sending then s.setPoll { s.poll with phase := .awaiting } else s) :=
  unlessHeld_released hr

theorem exec_replyStartBit : exec .replyStartBit s =
    .next (if s.poll.phase = .awaiting then s.setPoll { s.poll with phase := .receiving } else s) :=
  unlessHeld_released hr

theorem exec_settlingDone : exec .settlingDone s =
    .next (if s.poll.phase = .settling then s.setPoll { s.poll with phase := .idle } else s) :=
  unlessHeld_released hr

end

/-- A change of the Poll Engine leaves the rest of the part as it is. -/
theorem setPoll_frame (s : State) (x : PollEngine) :
    LinkKept s (s.setPoll x) ∧ KeptBut [.poll] s (s.setPoll x) ∧ (s.setPoll x).poll = x :=
  ⟨LinkKept.refl s, (KeptBut.refl _ s).setPoll _ (by simp), rfl⟩

theorem tbusDe_iff (s : State) : s.tbusDe = true ↔ s.poll.phase = .sending := decide_eq_true_iff

/-- Settles O55: each row by the phase it acts in, and what it does there. -/
theorem inquiriesStartAndBusPhasesFollow : Obligations.InquiriesStartAndBusPhasesFollow := by
  refine ⟨fun s hr h => exec_manualExchangeStart_none hr (startableRequest_eq_none h),
    fun s k c car hr hidle hnone hnopass hwaiting hk hc hcar => ?_, fun s hr => ⟨fun hp => ?_, fun hp => ?_,
      fun hp => ?_, fun hp => ?_, fun hp => ?_, fun hp => ?_⟩⟩
  · exact ⟨_, exec_manualExchangeStart_some hr
      (startableRequest_eq_some hidle hnone hnopass hwaiting hk hc hcar), setPoll_frame s _⟩
  · obtain ⟨hlink, hkept, hpoll⟩ := setPoll_frame s { s.poll with phase := .awaiting }
    exact ⟨_, (exec_frameSent hr).trans (by rw [if_pos hp]), hlink, hkept, hpoll, (tbusDe_iff s).2 hp, rfl⟩
  · exact ⟨(exec_frameSent hr).trans (by rw [if_neg hp]), decide_eq_false hp⟩
  · exact ⟨_, (exec_replyStartBit hr).trans (by rw [if_pos hp]), setPoll_frame s _⟩
  · exact (exec_replyStartBit hr).trans (by rw [if_neg hp])
  · exact ⟨_, (exec_settlingDone hr).trans (by rw [if_pos hp]), setPoll_frame s _⟩
  · exact (exec_settlingDone hr).trans (by rw [if_neg hp])

end Sys2Proof.Machine
end

section
/-! SUPPORT. What a command that changes the Poll Engine alone answers, which entry the checks of LDPLAN name, and how
they judge the payload of a plan (R134, R135, 10.5). -/

namespace Sys2Proof.Machine

/-- A command row that its block answers, leaving another Poll Engine. -/
theorem runCommand_sets_poll {c : CommandCode} {i : Instr} {owner : State → CommandResult} {s : State}
    {x : PollEngine} {r : ResultCode} {p : AnswerPayload} (hs : s.takes i) (hi : i.code? = some c)
    (ha : c.available s.mode.mode = true)
    (ho : owner (s.admitted c) = { state := (s.admitted c).setPoll x, result := r, payload := p }) :
    ∃ t, runCommand c i owner s = .next t ∧ Answered s t c r p ∧ KeptBut [.poll] s t ∧ t.poll = x :=
  let ⟨hlink, hkept, hpoll⟩ := setPoll_frame (s.admitted c) x
  runCommand_answers (Q := fun t => t.poll = x) _ hs hi ha ho hlink hkept hpoll

/-! ### The lowest item that meets a condition -/

section
variable {α : Type} {f : α → Bool} {l : List α} {meets : Nat → Prop}
  (hmeets : ∀ k, meets k ↔ ∃ x, l[k - 1]? = some x ∧ f x = true)
include hmeets

/-- A check finds the lowest item, counted from 1, that meets its condition. -/
theorem firstIndex_of_isLowest {k : Nat} (h : isLowest meets k) : firstIndex f 1 l = some k := by
  obtain ⟨hk, hmeet, hlower⟩ := h
  obtain ⟨x, hx, hfx⟩ := (hmeets k).1 hmeet
  have hbefore : ∀ i y, i < k - 1 → l[i]? = some y → f y = false := fun i y hi hy =>
    Bool.eq_false_iff.2 fun hfy => hlower (i + 1) (by omega) (by omega) ((hmeets _).2 ⟨y, hy, hfy⟩)
  rw [firstIndex_some f l 1 (k - 1) x hx hfx hbefore, Nat.add_sub_cancel' hk]

/-- A check finds nothing where no item, counted from 1, meets its condition. -/
theorem firstIndex_of_noneMeets (h : ∀ k, 1 ≤ k → ¬ meets k) : firstIndex f 1 l = none := by
  refine (firstIndex_none f l 1).2 fun x hx => Bool.eq_false_iff.2 fun hfx => ?_
  obtain ⟨i, hi⟩ := List.getElem?_of_mem hx
  exact h (i + 1) (by omega) ((hmeets _).2 ⟨x, hi, hfx⟩)

end

/-! ### The checks of a plan -/

/-- The checks of R135 from the entries on: every car, and then every span code. -/
def checkPlan (cars : Nat) (plan : List PlanEntry) : Except (PlanReason × Nat) (List PlanEntry) :=
  match firstIndex (fun e : PlanEntry => e.car = 0 || e.car > cars) 1 plan with
  | some k => .error (.car, k)
  | none =>
    match firstIndex (fun e : PlanEntry => e.span > 3) 1 plan with
    | some k => .error (.span, k)
    | none => .ok plan

section
variable {plan : List PlanEntry} {cars k : Nat}

theorem badCar_iff (k : Nat) : badCar plan cars k ↔
    ∃ e, plan[k - 1]? = some e ∧ (decide (e.car = 0) || decide (e.car > cars)) = true := by
  simp [badCar]

theorem badSpan_iff (k : Nat) : badSpan plan k ↔ ∃ e, plan[k - 1]? = some e ∧ decide (e.span > 3) = true := by
  simp [badSpan]

theorem checkPlan_car (h : isLowest (badCar plan cars) k) : checkPlan cars plan = .error (.car, k) := by
  simp only [checkPlan, firstIndex_of_isLowest badCar_iff h]

theorem checkPlan_span (hcars : ∀ k, 1 ≤ k → ¬ badCar plan cars k) (h : isLowest (badSpan plan) k) :
    checkPlan cars plan = .error (.span, k) := by
  simp only [checkPlan, firstIndex_of_noneMeets badCar_iff hcars, firstIndex_of_isLowest badSpan_iff h]

theorem checkPlan_ok (h : planFits cars plan) : checkPlan cars plan = .ok plan := by
  obtain ⟨_, hentries⟩ := h
  have hcars : ∀ k, 1 ≤ k → ¬ badCar plan cars k := by
    rintro k _ ⟨e, he, hbad⟩
    have := hentries e (List.mem_of_getElem? he)
    omega
  have hspans : ∀ k, 1 ≤ k → ¬ badSpan plan k := by
    rintro k _ ⟨e, he, hbad⟩
    have := hentries e (List.mem_of_getElem? he)
    omega
  simp only [checkPlan, firstIndex_of_noneMeets badCar_iff hcars, firstIndex_of_noneMeets badSpan_iff hspans]

/-! ### The payload of LDPLAN, as it is judged -/

theorem parsePlan_wrongLength {n : Byte} {rest : List Byte} (h : rest.length ≠ 2 * n.toNat) :
    parsePlan cars (n :: rest) = .error (.lengthOfPayload, 0) :=
  if_pos (by rw [List.length_cons]; omega)

/-- The payload of a plan is judged by its count, and then as that plan (R135, 10.5). -/
theorem parsePlan_bytes (hfits : planFitsPayload plan) : parsePlan cars (planBytes plan) =
    if 24 < plan.length then .error (.count, 0) else checkPlan cars plan := by
  obtain ⟨hlength, hentries⟩ := hfits
  have hcount : (BitVec.ofNat 8 plan.length).toNat = plan.length := by simp; omega
  simp only [planBytes, parsePlan, hcount, parseEntries_bytes plan hentries]
  rw [if_neg (by rw [List.length_cons, entryBytes_length]; omega)]
  rfl

end

end Sys2Proof.Machine
end

section
/-! PROOFS. LDPLAN, CANPLAN and CANSTBY. -/

namespace Sys2Proof.Machine

/-! ### LDPLAN -/

section
variable {s : State} {payload : List Byte}

theorem actLdplan_refuses {reason : PlanReason} {k : Nat}
    (h : parsePlan s.demand.carCount payload = .error (reason, k)) :
    actLdplan payload s = { state := s, result := .badParam, payload := .planReason reason k } := by
  simp only [actLdplan, h]

theorem actLdplan_loads {plan : List PlanEntry} (h : parsePlan s.demand.carCount payload = .ok plan) :
    actLdplan payload s =
      { state := s.setPoll { s.poll with standby := some plan }
        result := if s.poll.standby.isSome then .replaced else .done
        payload := .value plan.length } := by
  simp only [actLdplan, h]

variable (hs : s.takes (.ldplan payload))
include hs

/-- LDPLAN answers the reason of the check that its payload fails, and changes nothing (R135). -/
theorem ldplan_refuses {reason : PlanReason} {k : Nat}
    (h : parsePlan s.demand.carCount payload = .error (reason, k)) :
    ∃ t, exec (.ldplan payload) s = .next t ∧ Answered s t .ldplan .badParam (.planReason reason k)
      ∧ KeptBut [] s t :=
  runCommand_answers_unchanged (owner := actLdplan payload) hs rfl rfl (actLdplan_refuses h)

/-- LDPLAN writes the standby plan, and says whether one stood there (R135). -/
theorem ldplan_loads {plan : List PlanEntry} (h : parsePlan s.demand.carCount payload = .ok plan) :
    ∃ t, exec (.ldplan payload) s = .next t
      ∧ Answered s t .ldplan (if s.poll.standby.isSome then .replaced else .done) (.value plan.length)
      ∧ KeptBut [.poll] s t ∧ t.poll = { s.poll with standby := some plan } :=
  runCommand_sets_poll (owner := actLdplan payload) hs rfl rfl (actLdplan_loads h)

end

/-! ### CANPLAN and CANSTBY -/

theorem actCanplan_already {s : State} (h : s.poll.active = []) : actCanplan () s = .refuse s .already := if_pos h

theorem actCanplan_done {s : State} (h : s.poll.active ≠ []) :
    actCanplan () s = .done (s.setPoll { s.poll with active := [], pass := none }) := if_neg h

theorem actCanstby_already {s : State} (h : s.poll.standby = none) : actCanstby () s = .refuse s .already := by
  simp only [actCanstby, h]

theorem actCanstby_done {s : State} (h : s.poll.standby.isSome) :
    actCanstby () s = .done (s.setPoll { s.poll with standby := none }) := by
  obtain ⟨plan, hplan⟩ := Option.isSome_iff_exists.1 h
  simp only [actCanstby, hplan]

/-- Settles O44: the first check that a payload fails names the refusal, a plan that fits passes them all, and each of
the other two acts has its two cases. -/
theorem plansAreLoadedAndCancelled : Obligations.PlansAreLoadedAndCancelled := by
  refine ⟨fun s hs => ldplan_refuses hs rfl, fun s n rest hs hlen => ldplan_refuses hs (parsePlan_wrongLength hlen),
    fun s plan hs hfits => ?_, fun s hs => ⟨fun hnone => ?_, fun hactive => ?_⟩,
    fun s hs => ⟨fun hnone => ?_, fun hready => ?_⟩⟩
  · have hparse := parsePlan_bytes (cars := s.demand.carCount) hfits
    have hchecks (h24 : plan.length ≤ 24) :
        parsePlan s.demand.carCount (planBytes plan) = checkPlan s.demand.carCount plan :=
      hparse.trans (if_neg (Nat.not_lt.2 h24))
    refine ⟨fun hmany => ?_, fun h24 => ⟨fun k hk => ?_, fun hcars k hk => ?_⟩, fun hplan => ?_⟩
    · exact ldplan_refuses hs (hparse.trans (if_pos hmany))
    · exact ldplan_refuses hs ((hchecks h24).trans (checkPlan_car hk))
    · exact ldplan_refuses hs ((hchecks h24).trans (checkPlan_span hcars hk))
    · obtain ⟨h24, _⟩ := id hplan
      exact ldplan_loads hs ((hchecks h24).trans (checkPlan_ok hplan))
  · exact runCommand_answers_unchanged (owner := actCanplan ()) hs rfl rfl (actCanplan_already hnone)
  · exact runCommand_sets_poll (owner := actCanplan ()) hs rfl rfl (actCanplan_done hactive)
  · exact runCommand_answers_unchanged (owner := actCanstby ()) hs rfl rfl (actCanstby_already hnone)
  · exact runCommand_sets_poll (owner := actCanstby ()) hs rfl rfl (actCanstby_done hready)

end Sys2Proof.Machine
end

section
/-! PROOFS. XCHG, CANXCHG and RDXCHG. -/

namespace Sys2Proof.Machine

section
variable {s : State}

/-! ### XCHG -/

theorem actXchg_slotTaken {k : Nat} (h : s.poll.manual ≠ .empty) : actXchg k s = .refuse s .slotTaken := by
  cases hmanual : s.poll.manual with
  | empty => exact absurd hmanual h
  | waiting j => simp only [actXchg, hmanual]
  | inFlight j => simp only [actXchg, hmanual]

theorem actXchg_badParam {k : Nat} (h : s.poll.manual = .empty) (hk : k = 0 ∨ s.demand.carCount < k) :
    actXchg k s = .refuse s .badParam := by
  simp only [actXchg, h, if_pos hk]

theorem actXchg_done {k : Nat} (h : s.poll.manual = .empty) (h1 : 1 ≤ k) (hcount : k ≤ s.demand.carCount) :
    actXchg k s = .done (s.setPoll { s.poll with manual := .waiting k }) := by
  have hk : ¬ (k = 0 ∨ s.demand.carCount < k) := by omega
  simp only [actXchg, h, if_neg hk]

/-! ### CANXCHG -/

theorem actCanxchg_done {k : Nat} (h : s.poll.manual = .waiting k) :
    actCanxchg () s = .done (s.setPoll { s.poll with manual := .empty }) := by
  simp only [actCanxchg, h]

theorem actCanxchg_tooLate {k : Nat} (h : s.poll.manual = .inFlight k) : actCanxchg () s = .refuse s .tooLate := by
  simp only [actCanxchg, h]

theorem actCanxchg_already (h : s.poll.manual = .empty) : actCanxchg () s = .refuse s .already := by
  simp only [actCanxchg, h]

/-! ### RDXCHG -/

theorem actRdxchg_returns {r : ManualResult} (h : s.poll.result = .unread r) : actRdxchg () s =
    { state := s.setPoll { s.poll with result := .read r }, result := .done, payload := .manual r } := by
  simp only [actRdxchg, h]

theorem actRdxchg_noResult (h : ∀ r, s.poll.result ≠ .unread r) : actRdxchg () s = .refuse s .noResult := by
  cases hresult : s.poll.result with
  | empty => simp only [actRdxchg, hresult]
  | unread r => exact absurd hresult (h r)
  | read r => simp only [actRdxchg, hresult]

end

/-- Settles O45: each act by the manual slot, or the result, that it finds. -/
theorem manualRequestsAreKept : Obligations.ManualRequestsAreKept := by
  refine ⟨fun s k hs hm => ?_, fun s hs => ⟨fun k hk => ?_, fun k hk => ?_, fun hempty => ?_⟩,
    fun s hs => ⟨fun r hr => ?_, fun hnone => ?_⟩⟩
  · have ha : CommandCode.xchg.available s.mode.mode = true := decide_eq_true hm
    refine ⟨fun htaken => ?_, fun hempty hk => ?_, fun hempty h1 hcount => ?_⟩
    · exact runCommand_answers_unchanged (owner := actXchg k) hs rfl ha (actXchg_slotTaken htaken)
    · exact runCommand_answers_unchanged (owner := actXchg k) hs rfl ha (actXchg_badParam hempty hk)
    · exact runCommand_sets_poll (owner := actXchg k) hs rfl ha (actXchg_done hempty h1 hcount)
  · exact runCommand_sets_poll (owner := actCanxchg ()) hs rfl rfl (actCanxchg_done hk)
  · exact runCommand_answers_unchanged (owner := actCanxchg ()) hs rfl rfl (actCanxchg_tooLate hk)
  · exact runCommand_answers_unchanged (owner := actCanxchg ()) hs rfl rfl (actCanxchg_already hempty)
  · exact runCommand_sets_poll (owner := actRdxchg ()) hs rfl rfl (actRdxchg_returns hr)
  · exact runCommand_answers_unchanged (owner := actRdxchg ()) hs rfl rfl (actRdxchg_noResult hnone)

end Sys2Proof.Machine
end

section
/-! PROOFS. STOP. -/

namespace Sys2Proof.Machine

/-- STOP leaves the manual slot that SETCOMP leaves: a WAITING request is discarded (R88, R142, R182). -/
theorem stopped_manual (p : PollEngine) : p.stopped.manual = p.recomposed.manual := rfl

theorem actStop_already {s : State} (h : s.mode.mode = .config) : actStop () s = .refuse s .already := if_pos h

theorem actStop_done {s : State} (h : s.mode.mode ≠ .config) : actStop () s = .done s.stopCycling := if_neg h

/-- What STOP leaves of the part in STANDBY and HOLD (R182). -/
theorem keptBut_stopCycling (s : State) : KeptBut [.mode, .timer, .poll, .table] s s.stopCycling :=
  ((((KeptBut.refl _ s).setMode _ (by simp)).setTimer _ (by simp)).setTable _ (by simp)).setPoll _ (by simp)

/-- Settles O22: in CONFIG nothing is left to stop; in STANDBY and HOLD the four parts are replaced, the manual slot as
SETCOMP replaces it. -/
theorem stopReturnsToConfig : Obligations.StopReturnsToConfig := by
  refine fun s hs => ⟨fun hconfig => ?_, fun hcycling => ?_⟩
  · have ha : CommandCode.stop.available s.mode.mode = true := by rw [hconfig]; rfl
    exact runCommand_answers_unchanged (owner := actStop ()) hs rfl ha (actStop_already hconfig)
  · have ha : CommandCode.stop.available s.mode.mode = true := by rcases hcycling with h | h <;> rw [h] <;> rfl
    have hmode : s.mode.mode ≠ .config := by rcases hcycling with h | h <;> rw [h] <;> decide
    exact runCommand_answers (owner := actStop ()) _ hs rfl ha (actStop_done hmode)
      (LinkKept.refl (s.admitted .stop)) (keptBut_stopCycling _)
      ⟨rfl, rfl, rfl, fun _ hk => (stopped_manual s.poll).trans (recomposed_waiting hk),
        fun hk => (stopped_manual s.poll).trans (recomposed_notWaiting hk), rfl⟩

end Sys2Proof.Machine
end

section
/-! SUPPORT. What each outcome makes of a car's health, in each health state (R152 to R154), and what putting the health
of a car index changes of the part (R151, R158). -/

namespace Sys2Proof.Machine

/-! ### A GOOD outcome -/

section
variable (n r : Nat)

theorem good_served : CarHealth.good ⟨.served, n, r⟩ = ⟨.served, n - 1, r⟩ := rfl

theorem good_limited :
    CarHealth.good ⟨.limited, n, r⟩ = ⟨if n - 1 ≤ 63 then .served else .limited, n - 1, r⟩ := by
  unfold CarHealth.good
  simp only
  split <;> rfl

theorem good_cutOut : CarHealth.good ⟨.cutOut, n, r⟩ = ⟨.cutOut, n, r⟩ := rfl

theorem good_recovering :
    CarHealth.good ⟨.recovering, n, r⟩ = if 64 ≤ r + 1 then ⟨.served, 0, 0⟩ else ⟨.recovering, n, r + 1⟩ := rfl

end

/-! ### A failing outcome -/

section
variable {n w : Nat} (r : Nat)

/-- An addition that passes 255 cuts a car out, whether it was SERVED or LIMITED (R153). -/
theorem fail_passes {x : HealthState} (hx : x = .served ∨ x = .limited) (h : 255 < n + w) :
    CarHealth.fail ⟨x, n, r⟩ w = ⟨.cutOut, 255, r⟩ := by
  rcases hx with rfl | rfl
  · exact if_pos h
  · exact if_pos h

theorem fail_served (h : n + w ≤ 255) :
    CarHealth.fail ⟨.served, n, r⟩ w = ⟨if 96 ≤ n + w then .limited else .served, n + w, r⟩ := by
  refine (if_neg (Nat.not_lt.2 h)).trans ?_
  split <;> rfl

theorem fail_limited (h : n + w ≤ 255) : CarHealth.fail ⟨.limited, n, r⟩ w = ⟨.limited, n + w, r⟩ :=
  if_neg (Nat.not_lt.2 h)

theorem fail_cutOut (n w : Nat) : CarHealth.fail ⟨.cutOut, n, r⟩ w = ⟨.cutOut, n, r⟩ := rfl

theorem fail_recovering (n w : Nat) : CarHealth.fail ⟨.recovering, n, r⟩ w = ⟨.cutOut, 255, r⟩ := rfl

end

/-- TIMEOUT and BAD weigh 8, FAULT 16 (R153). -/
theorem count_eq_fail {o : ExchangeOutcome} {w : Nat} (h : (o = .timeout ∨ o = .bad) ∧ w = 8 ∨ o = .fault ∧ w = 16)
    (c : CarHealth) : c.count o = c.fail w := by
  rcases h with ⟨rfl | rfl, rfl⟩ | ⟨rfl, rfl⟩
  · rfl
  · rfl
  · rfl

/-- A CUT OUT car is beyond the reach of its outcomes (R152, R154). -/
theorem count_cutOut (n r : Nat) (o : ExchangeOutcome) : CarHealth.count ⟨.cutOut, n, r⟩ o = ⟨.cutOut, n, r⟩ := by
  cases o with
  | good => exact good_cutOut n r
  | fault => exact fail_cutOut r n 16
  | bad => exact fail_cutOut r n 8
  | timeout => exact fail_cutOut r n 8

/-! ### The health of a car index -/

theorem healthOf_eq {s : State} {k : Nat} {c : CarHealth} (hk : 1 ≤ k) (hc : s.health[k - 1]? = some c) :
    s.healthOf k = c := by
  simp [State.healthOf, Nat.ne_of_gt hk, hc]

theorem putHealth_health {s : State} {k : Nat} (hk : 1 ≤ k) (c : CarHealth) :
    (s.putHealth k c).health = s.health.set (k - 1) c := if_neg (Nat.ne_of_gt hk)

/-- Of the port, the CARS bit of the car index alone is raised, and only by a change of its health state (R158). -/
theorem putHealth_link (s : State) (k : Nat) (c : CarHealth) : (s.putHealth k c).link = { s.link with
    cars := if c.state = (s.healthOf k).state then s.link.cars else s.link.cars ||| carWord k } := by
  rw [State.putHealth, State.setLink_link]
  split <;> rfl

/-- Putting the health of a car index changes no part but health and attention. -/
theorem putHealth_frame (s : State) (k : Nat) (c : CarHealth) :
    LinkKept s (s.putHealth k c) ∧ KeptBut [.health, .attention] s (s.putHealth k c) := by
  refine ⟨?_, fun b => ?_, rfl, rfl, rfl⟩
  · unfold LinkKept
    rw [putHealth_link]
    exact ⟨rfl, rfl, rfl, rfl, rfl, rfl, rfl⟩
  · cases b
    case health => exact Or.inl (by simp)
    case attention => exact Or.inl (by simp)
    all_goals exact Or.inr rfl

end Sys2Proof.Machine
end

section
/-! PROOFS. Every step keeps the agreement of each car's counter with its health state. -/

namespace Sys2Proof.Machine

/-! ### One car -/

section
variable (n r : Nat)

theorem agrees_served : CarHealth.agrees ⟨.served, n, r⟩ ↔ r ≤ 63 ∧ n ≤ 95 := Iff.rfl

theorem agrees_limited : CarHealth.agrees ⟨.limited, n, r⟩ ↔ r ≤ 63 ∧ 64 ≤ n ∧ n ≤ 255 := Iff.rfl

theorem agrees_cutOut : CarHealth.agrees ⟨.cutOut, n, r⟩ ↔ r ≤ 63 ∧ n = 255 := Iff.rfl

theorem agrees_recovering : CarHealth.agrees ⟨.recovering, n, r⟩ ↔ r ≤ 63 ∧ n = 0 := Iff.rfl

end

theorem clear_agrees : CarHealth.clear.agrees := (agrees_served _ _).2 ⟨Nat.zero_le _, Nat.zero_le _⟩

theorem restored_agrees : CarHealth.restored.agrees := (agrees_recovering _ _).2 ⟨Nat.zero_le _, rfl⟩

/-- A GOOD outcome keeps the agreement: a LIMITED car that comes down to 63 is SERVED, and a recovery that would count
64 ends (R152). -/
theorem good_agrees {c : CarHealth} (h : c.agrees) : c.good.agrees := by
  obtain ⟨state, n, r⟩ := c
  cases state with
  | served =>
    rw [agrees_served] at h
    rw [good_served, agrees_served]
    omega
  | limited =>
    rw [agrees_limited] at h
    rw [good_limited]
    split
    · rw [agrees_served]
      omega
    · rw [agrees_limited]
      omega
  | cutOut => exact h
  | recovering =>
    rw [agrees_recovering] at h
    rw [good_recovering]
    split
    · exact clear_agrees
    · rw [agrees_recovering]
      omega

/-- A failing outcome of any weight keeps the agreement: what passes 255 is CUT OUT at 255, and a SERVED car that
reaches 96 is LIMITED (R153, R154). -/
theorem fail_agrees {c : CarHealth} (h : c.agrees) (w : Nat) : (c.fail w).agrees := by
  obtain ⟨state, n, r⟩ := c
  obtain ⟨hr, _⟩ := id h
  have hcut : CarHealth.agrees ⟨.cutOut, 255, r⟩ := (agrees_cutOut _ _).2 ⟨hr, rfl⟩
  cases state with
  | served =>
    rcases Nat.lt_or_ge 255 (n + w) with hover | hwithin
    · rwa [fail_passes r (Or.inl rfl) hover]
    · rw [fail_served r hwithin]
      split
      · exact (agrees_limited _ _).2 ⟨hr, by omega, hwithin⟩
      · exact (agrees_served _ _).2 ⟨hr, by omega⟩
  | limited =>
    rcases Nat.lt_or_ge 255 (n + w) with hover | hwithin
    · rwa [fail_passes r (Or.inr rfl) hover]
    · obtain ⟨_, hlow, _⟩ := (agrees_limited _ _).1 h
      rw [fail_limited r hwithin]
      exact (agrees_limited _ _).2 ⟨hr, by omega, hwithin⟩
  | cutOut => exact h
  | recovering => exact hcut

theorem count_agrees {c : CarHealth} (h : c.agrees) (o : ExchangeOutcome) : (c.count o).agrees := by
  cases o with
  | good => exact good_agrees h
  | fault => exact fail_agrees h 16
  | bad => exact fail_agrees h 8
  | timeout => exact fail_agrees h 8

/-! ### The changes that touch health -/

section
variable {u : State} (h : u.healthSound)
include h

/-- The agreement is of the Health Unit alone. -/
theorem healthSound_of_health_eq {t : State} (ht : t.health = u.health) : t.healthSound := by
  unfold State.healthSound
  rwa [ht]

theorem healthOf_agrees (k : Nat) : (u.healthOf k).agrees := by
  obtain ⟨_, hall⟩ := h
  unfold State.healthOf
  split
  · exact clear_agrees
  · rw [List.getD_eq_getElem?_getD]
    cases hc : u.health[k - 1]? with
    | none => exact clear_agrees
    | some c => exact hall c (List.mem_of_getElem? hc)

theorem putHealth_healthSound (k : Nat) {c : CarHealth} (hc : c.agrees) : (u.putHealth k c).healthSound := by
  rcases Nat.eq_zero_or_pos k with rfl | hk
  · exact h
  · obtain ⟨hlength, hall⟩ := h
    unfold State.healthSound
    rw [putHealth_health hk]
    refine ⟨List.length_set.trans hlength, fun x hx => ?_⟩
    rcases List.mem_or_eq_of_mem_set hx with hold | rfl
    · exact hall x hold
    · exact hc

theorem countOutcome_healthSound (k : Nat) (o : ExchangeOutcome) : (u.countOutcome k o).healthSound :=
  putHealth_healthSound h k (count_agrees (healthOf_agrees h k) o)

/-- The outcome of an exchange is counted, where no SETCOMP has come between (R89, R151); the rest of what it brings
about leaves health alone. -/
theorem takeOutcome_healthSound (e : Exchange) (o : ExchangeOutcome) (r : Option Reply) :
    (u.takeOutcome e o r).healthSound := by
  have hcounted := countOutcome_healthSound (u := u.setPoll (u.poll.endExchange e)) h e.car o
  unfold State.takeOutcome State.applyOutcome
  simp only
  split
  · exact h
  · split
    · exact hcounted
    · exact hcounted

end

/-- SETCOMP and the resets set every index to SERVED with both counts 0 (R160). -/
theorem healthClear_sound {t : State} (ht : t.health = healthClear) : t.healthSound :=
  healthSound_of_health_eq reset_healthSound ht

/-! ### The rows -/

/-- A byte of a marker message, and the fix it may complete, leave health alone. -/
theorem markerByte_health (s : State) (b : Byte) (ok : Bool) : (s.markerByte b ok).health = s.health := by
  unfold State.markerByte State.takeMessage State.judgeFix
  split
  · split <;> rfl
  · split
    · split
      · split
        · rfl
        · split
          · rfl
          · split <;> rfl
      · rfl
    · rfl

/-- Every change of state that a row can make keeps the agreement: an outcome taken, RESTORE, SETCOMP and the resets
touch health, and no other change does. -/
theorem keeps_healthSound : Keeps State.healthSound where
  start u h _ := by unfold actStart; split <;> exact h
  run u h _ := by unfold actRun; split <;> exact h
  stby u h _ := by unfold actStby; split <;> exact h
  hold u d h _ := by unfold actHold; split <;> exact h
  stop u h _ := by unfold actStop; split <;> exact h
  reset u h := h
  setcal u n h := by unfold actSetcal; split <;> exact h
  setpos u p h := h
  setfix u f h := by
    unfold actSetfix
    split
    · exact h
    · exact healthSound_of_health_eq h (checkInterval_health _)
  openr u f h _ := by unfold actOpenr; split <;> exact h
  putp u vs h _ := by unfold actWrite; split; exact h; split <;> exact h
  contp u vs h _ := by unfold actWrite; split; exact h; split <;> exact h
  closer u h _ := by unfold actCloser; split; exact h; split <;> exact h
  abandr u h _ := by unfold actAbandr; split <;> exact h
  wdraw u f h _ := by unfold actWdraw; split; exact h; split <;> exact h
  wdsect u f h _ := by unfold actWdsect; split <;> exact h
  clrtab u h _ := h
  rdrec u f h := by unfold actRdrec State.readSlot; split; exact h; split; exact h; split <;> exact h
  rdslot u f h := by unfold actRdslot State.readSlot; split; exact h; split; exact h; split <;> exact h
  tsum u h := h
  cover u p h _ := by unfold actCover; split <;> exact h
  setcyc u f h := by unfold actSetcyc; split <;> exact h
  setcomp u p h _ := by unfold actSetcomp; split; exact h; exact healthClear_sound rfl
  settrav u f h _ := by unfold actSettrav; split <;> exact h
  setlim u f h _ := by unfold actSetlim; split <;> exact h
  setbus u n h := by unfold actSetbus; split; exact h; split <;> exact h
  ldplan u p h := by unfold actLdplan; split <;> exact h
  canplan u h := by unfold actCanplan; split <;> exact h
  canstby u h := by unfold actCanstby; split <;> exact h
  xchg u k h _ := by unfold actXchg; split; exact h; exact h; split <;> exact h
  canxchg u h := by unfold actCanxchg; split <;> exact h
  rdxchg u h := by unfold actRdxchg; split <;> exact h
  restore u k h _ := by
    unfold actRestore
    split
    · exact h
    · split
      · exact putHealth_healthSound h k restored_agrees
      · exact h
  pulse u d h := healthSound_of_health_eq h ((checkHold_health _).trans (checkInterval_health _))
  interval u h := healthSound_of_health_eq h (checkInterval_health u)
  holdx u h := healthSound_of_health_eq h (checkHold_health u)
  strobe u h := h
  mbyte u b ok h := healthSound_of_health_eq h (markerByte_health u b ok)
  cut u h := h
  fence u h _ := h
  serve u k e car p h _ := h
  inquiry u k car h _ := h
  sent u h _ := h
  sbit u h _ := h
  rbyte u e b ok h _ _ _ := h
  outcome u e o r h _ := takeOutcome_healthSound h e o r
  settled u h _ := h
  answered u h := h
  soft u h := healthClear_sound rfl
  pin _ _ _ := healthClear_sound rfl
  pow _ _ _ := healthClear_sound rfl
  rel u h := h

/-- Settles O11: each change of state that a row can make keeps the agreement, and the port does not bear on it. -/
theorem healthStaysInAgreement : Obligations.HealthStaysInAgreement :=
  step_keeps (fun _ _ h => h) (exec_keeps keeps_healthSound fun _ _ h => h)

end Sys2Proof.Machine
end

section
/-! PROOFS. A car's health at each outcome, and RESTORE. -/

namespace Sys2Proof.Machine

/-! ### RESTORE -/

section
variable {s : State} {k : Nat}

theorem actRestore_badParam (hk : k = 0 ∨ s.demand.carCount < k) : actRestore k s = .refuse s .badParam := if_pos hk

variable {c : CarHealth} (h1 : 1 ≤ k) (hcount : k ≤ s.demand.carCount) (hc : s.health[k - 1]? = some c)
include h1 hcount hc

/-- RESTORE of a car of the composition goes by the health state it finds (R155). -/
theorem actRestore_eq : actRestore k s =
    if c.state = .cutOut then
      { state := s.putHealth k .restored, result := .done, payload := .restored k .recovering 0 }
    else { state := s, result := .already, payload := .restored k c.state c.recovery } := by
  rw [actRestore, if_neg (by omega), healthOf_eq h1 hc]

variable (hs : s.takes (.restore (.exact k))) (ha : CommandCode.restore.available s.mode.mode = true)
include hs ha

/-- A CUT OUT car is RECOVERING, and its CARS bit is raised (R155, R158). -/
theorem restore_cutOut (hcut : c.state = .cutOut) : ∃ t, exec (.restore (.exact k)) s = .next t
    ∧ Answered s t .restore .done (.restored k .recovering 0) ∧ KeptBut [.health, .attention] s t
    ∧ t.health = s.health.set (k - 1) .restored ∧ t.link.causes = s.link.causes ∧ t.link.masks = s.link.masks
    ∧ t.link.cars = s.link.cars ||| carWord k := by
  have hchanged : CarHealth.restored.state ≠ ((s.admitted .restore).healthOf k).state := by
    rw [healthOf_eq (s := s.admitted .restore) h1 hc, hcut]
    decide
  obtain ⟨hlink, hkept⟩ := putHealth_frame (s.admitted .restore) k .restored
  refine runCommand_answers (owner := actRestore k) _ hs rfl ha
    ((actRestore_eq (s := s.admitted .restore) h1 hcount hc).trans (if_pos hcut)) hlink hkept ?_
  rw [State.answer_health, putHealth_health h1, State.answer_link, putHealth_link, if_neg hchanged]
  exact ⟨rfl, LinkPort.admitted_causes _ _, LinkPort.admitted_masks _ _,
    congrArg (· ||| carWord k) (LinkPort.admitted_cars _ _)⟩

theorem restore_already (hnot : c.state ≠ .cutOut) : ∃ t, exec (.restore (.exact k)) s = .next t
    ∧ Answered s t .restore .already (.restored k c.state c.recovery) ∧ KeptBut [] s t :=
  runCommand_answers_unchanged (owner := actRestore k) hs rfl ha
    ((actRestore_eq (s := s.admitted .restore) h1 hcount hc).trans (if_neg hnot))

end

/-- Settles O46: the equations of the two kinds of outcome, state by state, and the three cases of RESTORE. -/
theorem healthFollowsOutcomesAndRestore : Obligations.HealthFollowsOutcomesAndRestore := by
  refine ⟨good_served, good_limited, count_cutOut, good_recovering, fun n r w o hw => ?_, fun s k hs hm => ?_⟩
  · simp only [count_eq_fail hw]
    exact ⟨fail_recovering r n w, fun hover x hx => fail_passes r hx hover, fail_limited r, fail_served r⟩
  · have ha : CommandCode.restore.available s.mode.mode = true := decide_eq_true hm
    refine ⟨fun hk => ?_, fun c h1 hcount hc => ⟨?_, ?_⟩⟩
    · exact runCommand_answers_unchanged (owner := actRestore k) hs rfl ha (actRestore_badParam hk)
    · exact restore_cutOut h1 hcount hc hs ha
    · exact restore_already h1 hcount hc hs ha

end Sys2Proof.Machine
end

section
/-! SUPPORT. That the link command rows are acts of their blocks run by the port, what an act and an event leave of the
port, and the parts of the port's soundness (R162, R165, R166, R172, R173, R183; the stages, log 14). -/

namespace Sys2Proof.Machine

/-! ### The parts of `State.portSound` -/

/-- IDLE holds nothing, ACTING a frame of a known command, ANSWERING a frame and its answer (R165). -/
def LinkPort.sideSound (l : LinkPort) : Prop :=
  match l.phase with
  | .idle => l.buffer = none ∧ l.answer = none
  | .acting => (∃ c, l.buffer.bind Buffered.code = some c) ∧ l.answer = none
  | .answering => l.buffer.isSome ∧ l.answer.isSome

/-- The stage of a RESET and the phase of the answer side go together (R166, R183; log 14). -/
def ResetStage.inStep (g : ResetStage) (p : PortPhase) : Prop :=
  match g with
  | .none => True
  | .answering => p = .answering
  | .due => p = .idle

/-- The first 64 bytes of a frame in reception are kept, and none is while the receiver hunts (R162). -/
def Receiver.sound (r : Receiver) : Prop :=
  r.content.length = min r.count 64 ∧ (r.phase = .hunt → r.count = 0)

/-- The cause word has no bit for CARS, and neither it nor the mask word has bit 15 (R171, R173). -/
def LinkPort.wordsSound (l : LinkPort) : Prop :=
  l.causes.getLsbD 8 = false ∧ l.causes.getLsbD 15 = false ∧ l.masks.getLsbD 15 = false

/-- The counts of frames are held at 65,535 (R172). -/
def LinkPort.countsSound (l : LinkPort) : Prop := l.taken ≤ 65535 ∧ l.notTaken ≤ 65535 ∧ l.dropped ≤ 65535

theorem portSound_iff (s : State) : s.portSound ↔ s.link.sideSound ∧ s.mode.resetStage.inStep s.link.phase
    ∧ s.link.receiver.sound ∧ s.link.wordsSound ∧ s.link.countsSound :=
  ⟨fun ⟨hside, hstage, hkept, hhunt, hwords, hcounts⟩ => ⟨hside, hstage, ⟨hkept, hhunt⟩, hwords, hcounts⟩,
    fun ⟨hside, hstage, ⟨hkept, hhunt⟩, hwords, hcounts⟩ => ⟨hside, hstage, hkept, hhunt, hwords, hcounts⟩⟩

section
variable {l : LinkPort}

theorem sideSound_idle (h : l.phase = .idle) : l.sideSound ↔ l.buffer = none ∧ l.answer = none := by
  simp [LinkPort.sideSound, h]

theorem sideSound_acting (h : l.phase = .acting) :
    l.sideSound ↔ (∃ c, l.buffer.bind Buffered.code = some c) ∧ l.answer = none := by
  simp [LinkPort.sideSound, h]

theorem sideSound_answering (h : l.phase = .answering) :
    l.sideSound ↔ l.buffer.isSome = true ∧ l.answer.isSome = true := by
  simp [LinkPort.sideSound, h]

end

theorem opened_sound (bad : Bool) : (Receiver.opened bad).sound := ⟨rfl, fun _ => rfl⟩

/-- No cause stands in bit 8 or in bit 15 of the cause word (10.5). -/
theorem Cause.bit_ne (c : Cause) : 8 ≠ c.bit ∧ 15 ≠ c.bit := by cases c <;> decide

theorem wordsSound_raiseIf {l : LinkPort} (h : l.wordsSound) (b : Bool) (c : Cause) : (l.raiseIf b c).wordsSound := by
  obtain ⟨h8, h15, hmasks⟩ := h
  obtain ⟨hc8, hc15⟩ := c.bit_ne
  exact ⟨(causes_raiseIf l b c 8 hc8).trans h8, (causes_raiseIf l b c 15 hc15).trans h15,
    (LinkPort.raiseIf_masks l c b).symm ▸ hmasks⟩

/-! ### What an act and an event leave of the port -/

/-- The link side of the port and the stage of a RESET are the same, and the words stay sound. -/
def PortKept (s u : State) : Prop :=
  LinkKept s u ∧ u.mode.resetStage = s.mode.resetStage ∧ (s.link.wordsSound → u.link.wordsSound)

theorem PortKept.refl (s : State) : PortKept s s := ⟨LinkKept.refl s, rfl, id⟩

section
variable {s u : State} (h : PortKept s u)
include h

theorem PortKept.raiseIf (b : Bool) (c : Cause) : PortKept s (u.raiseIf b c) := by
  obtain ⟨hlink, hstage, hwords⟩ := h
  exact ⟨hlink.raiseIf b c, hstage, fun hs => wordsSound_raiseIf (hwords hs) b c⟩

theorem PortKept.raise (c : Cause) : PortKept s (u.raise c) := h.raiseIf true c

theorem PortKept.setLock (l : Lock) : PortKept s (u.setLock l) :=
  PortKept.raiseIf (u := u.setPosition { u.position with lock := l }) h _ _

theorem PortKept.checkInterval : PortKept s u.checkInterval := by
  unfold State.checkInterval
  split
  · exact PortKept.setLock (u := u.setPosition { u.position with candidate := none }) h _
  · exact h

theorem PortKept.checkHold : PortKept s u.checkHold := by
  unfold State.checkHold
  split
  · exact PortKept.raise (u := u.setMode { u.mode with mode := .standby }) h _
  · exact h

/-- A CARS bit raised is no cause of the cause word (R168). -/
theorem PortKept.putHealth (k : Nat) (c : CarHealth) : PortKept s (u.putHealth k c) := by
  unfold PortKept LinkKept LinkPort.wordsSound
  rw [putHealth_link]
  exact h

theorem PortKept.takeOutcome (e : Exchange) (o : ExchangeOutcome) (r : Option Reply) :
    PortKept s (u.takeOutcome e o r) := by
  have hcounted := PortKept.putHealth (u := u.setPoll (u.poll.endExchange e)) h e.car
    (((u.setPoll (u.poll.endExchange e)).healthOf e.car).count o)
  unfold State.takeOutcome State.applyOutcome
  simp only
  split
  · exact h
  · split
    · exact hcounted.raise _
    · exact hcounted

theorem PortKept.replyByte (e : Exchange) (b : Byte) (ok : Bool) : PortKept s (u.replyByte e b ok) := by
  unfold State.replyByte
  split
  · exact h.takeOutcome _ _ _
  · exact h

theorem PortKept.unmatched : PortKept s u.unmatched := by
  unfold State.unmatched
  refine PortKept.raise ?_ _
  exact h

theorem PortKept.judgeFix (i : Nat) (e : Int) : PortKept s (u.judgeFix i e) := by
  unfold State.judgeFix State.applyFix State.rejectFix
  split
  · refine PortKept.setLock ?_ _
    exact h
  · refine PortKept.setLock (PortKept.raiseIf ?_ _ _) _
    exact h

theorem PortKept.takeMessage (m : MarkerReception) : PortKept s (u.takeMessage m) := by
  unfold State.takeMessage
  split
  · split
    · exact h
    · split
      · exact h.unmatched
      · refine PortKept.judgeFix ?_ _ _
        exact h
  · exact h

theorem PortKept.markerByte (b : Byte) (ok : Bool) : PortKept s (u.markerByte b ok) := by
  unfold State.markerByte
  split
  · split <;> exact h
  · split
    · exact h.takeMessage _
    · exact h

end

/-- A pulse counts towards the hold distance, and leaves the stage of a RESET (R175). -/
theorem PortKept.movePulse (s : State) (d : Direction) : PortKept s (s.movePulse d) := by
  refine ⟨LinkKept.refl s, ?_, id⟩
  rw [State.movePulse, State.setMode_mode, travel_eq]

theorem PortKept.takeFence (s : State) : PortKept s s.takeFence :=
  (((((PortKept.refl s).raiseIf _ _).raiseIf _ _).raiseIf _ _).raiseIf _ _).raiseIf _ _

/-- What keeps the port keeps it sound. -/
theorem PortKept.sound {s u : State} (h : PortKept s u) (hs : s.portSound) : u.portSound := by
  obtain ⟨⟨hr, hp, hb, ha, ht, hn, hd⟩, hg, hwords⟩ := h
  rw [portSound_iff] at hs ⊢
  unfold LinkPort.sideSound LinkPort.countsSound at hs ⊢
  rw [hr, hp, hb, ha, ht, hn, hd, hg]
  obtain ⟨hside, hstage, hreceiver, hsound, hcounts⟩ := hs
  exact ⟨hside, hstage, hreceiver, hwords hsound, hcounts⟩

/-- A block's act leaves the link side of the port, and no act makes a software reset due (R166, R183). -/
def ActKept (s u : State) : Prop :=
  LinkKept s u ∧ (u.mode.resetStage = s.mode.resetStage ∨ u.mode.resetStage = .answering)
    ∧ (s.link.wordsSound → u.link.wordsSound)

theorem PortKept.act {s u : State} (h : PortKept s u) : ActKept s u :=
  let ⟨hlink, hstage, hwords⟩ := h
  ⟨hlink, Or.inl hstage, hwords⟩

theorem actReset_kept (s : State) : ActKept s (actReset () s).state := ⟨LinkKept.refl s, Or.inr rfl, id⟩

theorem actSetcal_kept (n : Nat) (s : State) : PortKept s (actSetcal n s).state := by
  unfold actSetcal
  split
  · exact .refl s
  · exact PortKept.setLock (u := s.setPosition _) (.refl s) _

theorem actSetfix_kept (f : FixFields) (s : State) : PortKept s (actSetfix f s).state := by
  unfold actSetfix
  split
  · exact .refl s
  · exact PortKept.checkInterval (u := s.setPosition _) (.refl s)

theorem actWrite_kept (start : Assembly → Nat) (values : List Word) (s : State) :
    PortKept s (actWrite start values s).state := by
  unfold actWrite
  split
  · exact .refl s
  · split <;> exact .refl s

theorem actCloser_kept (s : State) : PortKept s (actCloser () s).state := by
  unfold actCloser
  split
  · exact .refl s
  · split
    · exact .refl s
    · exact .refl s
    · exact PortKept.raiseIf (u := s.setTable _) (.refl s) _ _

theorem actRestore_kept (k : Nat) (s : State) : PortKept s (actRestore k s).state := by
  unfold actRestore
  split
  · exact .refl s
  · split
    · exact (PortKept.refl s).putHealth _ _
    · exact .refl s

theorem readSlot_kept (s : State) (i : Nat) (part : ReadPart) : PortKept s (s.readSlot i part).state := by
  unfold State.readSlot
  split <;> exact .refl s

theorem actRdatt_kept (s : State) : PortKept s (actRdatt () s).state :=
  ⟨LinkKept.refl s, rfl, fun ⟨_, _, hmasks⟩ => ⟨BitVec.getLsbD_zero, BitVec.getLsbD_zero, hmasks⟩⟩

/-- A mask word taken has bit 15 clear (R171). -/
theorem actSetmask_kept (w : Word) (s : State) : PortKept s (actSetmask w s).state := by
  unfold actSetmask
  split
  · exact .refl s
  · rename_i hw
    exact ⟨LinkKept.refl s, rfl, fun ⟨h8, h15, _⟩ => ⟨h8, h15, eq_false_of_ne_true hw⟩⟩

/-! ### The link command rows -/

/-- A payload of a wrong length leaves everything. -/
theorem withParameters_kept {α : Type} {owner : α → State → CommandResult}
    (h : ∀ a s, ActKept s (owner a s).state) (p : Payload α) (s : State) :
    ActKept s (withParameters p owner s).state := by
  cases p with
  | exact a => exact h a s
  | wrongLength => exact (PortKept.refl s).act

/-- The row is the act of a block, run by the port for a command, and the act leaves the link side of the port. -/
def RunsBlock (i : Instr) (c : CommandCode) : Prop :=
  ∃ owner, (∀ s, exec i s = runCommand c i owner s) ∧ ∀ s, ActKept s (owner s).state

theorem runsBlock_row {i : Instr} {c d : CommandCode} (hc : some d = some c) {owner : State → CommandResult}
    (hexec : ∀ s, exec i s = runCommand d i owner s) (hkept : ∀ s, ActKept s (owner s).state) : RunsBlock i c :=
  Option.some.inj hc ▸ ⟨owner, hexec, hkept⟩

theorem runsBlock_payload {α : Type} {i : Instr} {c d : CommandCode} (hc : some d = some c) (p : Payload α)
    {owner : α → State → CommandResult} (hexec : ∀ s, exec i s = runCommand d i (withParameters p owner) s)
    (hkept : ∀ a s, PortKept s (owner a s).state) : RunsBlock i c :=
  runsBlock_row hc hexec (withParameters_kept (fun a s => (hkept a s).act) p)

/-- Every link command row runs its block (R166). -/
theorem runsBlock_of_code {i : Instr} {c : CommandCode} (hc : i.code? = some c) : RunsBlock i c := by
  cases i with
  | start p => exact runsBlock_payload hc p (fun _ => rfl) fun _ s => by unfold actStart; split <;> exact .refl s
  | run p => exact runsBlock_payload hc p (fun _ => rfl) fun _ s => by unfold actRun; split <;> exact .refl s
  | stby p => exact runsBlock_payload hc p (fun _ => rfl) fun _ s => by unfold actStby; split <;> exact .refl s
  | hold p => exact runsBlock_payload hc p (fun _ => rfl) fun _ s => by unfold actHold; split <;> exact .refl s
  | stop p => exact runsBlock_payload hc p (fun _ => rfl) fun _ s => by unfold actStop; split <;> exact .refl s
  | reset p => exact runsBlock_row hc (fun _ => rfl) (withParameters_kept (fun _ => actReset_kept) p)
  | rdstat p => exact runsBlock_payload hc p (fun _ => rfl) fun _ => .refl
  | setcal p => exact runsBlock_payload hc p (fun _ => rfl) actSetcal_kept
  | setpos p =>
    exact runsBlock_payload hc p (fun _ => rfl) fun _ s => PortKept.setLock (u := s.setPosition _) (.refl s) _
  | setfix p => exact runsBlock_payload hc p (fun _ => rfl) actSetfix_kept
  | rdpos p => exact runsBlock_payload hc p (fun _ => rfl) fun _ => .refl
  | openr p => exact runsBlock_payload hc p (fun _ => rfl) fun _ s => by unfold actOpenr; split <;> exact .refl s
  | putp p => exact runsBlock_payload hc p (fun _ => rfl) (actWrite_kept _)
  | contp p => exact runsBlock_payload hc p (fun _ => rfl) (actWrite_kept _)
  | closer p => exact runsBlock_payload hc p (fun _ => rfl) fun _ => actCloser_kept
  | abandr p => exact runsBlock_payload hc p (fun _ => rfl) fun _ s => by unfold actAbandr; split <;> exact .refl s
  | wdraw p =>
    refine runsBlock_payload hc p (fun _ => rfl) fun _ s => ?_
    unfold actWdraw
    split
    · exact .refl s
    · split <;> exact .refl s
  | wdsect p => exact runsBlock_payload hc p (fun _ => rfl) fun _ s => by unfold actWdsect; split <;> exact .refl s
  | clrtab p => exact runsBlock_payload hc p (fun _ => rfl) fun _ => .refl
  | rdrec p =>
    refine runsBlock_payload hc p (fun _ => rfl) fun _ s => ?_
    unfold actRdrec
    split
    · exact .refl s
    · split
      · exact .refl s
      · exact readSlot_kept s _ _
  | rdslot p =>
    refine runsBlock_payload hc p (fun _ => rfl) fun _ s => ?_
    unfold actRdslot
    split
    · exact .refl s
    · split
      · exact .refl s
      · exact readSlot_kept s _ _
  | findat p => exact runsBlock_payload hc p (fun _ => rfl) fun _ => .refl
  | tsum p => exact runsBlock_payload hc p (fun _ => rfl) fun _ => .refl
  | cover p => exact runsBlock_payload hc p (fun _ => rfl) fun _ s => by unfold actCover; split <;> exact .refl s
  | setcyc p => exact runsBlock_payload hc p (fun _ => rfl) fun _ s => by unfold actSetcyc; split <;> exact .refl s
  | setcomp payload =>
    refine runsBlock_row hc (fun _ => rfl) fun s => PortKept.act ?_
    unfold actSetcomp
    split <;> exact .refl s
  | settrav p => exact runsBlock_payload hc p (fun _ => rfl) fun _ s => by unfold actSettrav; split <;> exact .refl s
  | rdcomp p => exact runsBlock_payload hc p (fun _ => rfl) fun _ => .refl
  | setlim p => exact runsBlock_payload hc p (fun _ => rfl) fun _ s => by unfold actSetlim; split <;> exact .refl s
  | rdcar p => exact runsBlock_payload hc p (fun _ => rfl) fun _ s => by unfold actRdcar; split <;> exact .refl s
  | setbus p =>
    refine runsBlock_payload hc p (fun _ => rfl) fun _ s => ?_
    unfold actSetbus
    split
    · exact .refl s
    · split <;> exact .refl s
  | ldplan payload =>
    refine runsBlock_row hc (fun _ => rfl) fun s => PortKept.act ?_
    unfold actLdplan
    split <;> exact .refl s
  | canplan p => exact runsBlock_payload hc p (fun _ => rfl) fun _ s => by unfold actCanplan; split <;> exact .refl s
  | canstby p => exact runsBlock_payload hc p (fun _ => rfl) fun _ s => by unfold actCanstby; split <;> exact .refl s
  | xchg p =>
    refine runsBlock_payload hc p (fun _ => rfl) fun _ s => ?_
    unfold actXchg
    split
    · exact .refl s
    · exact .refl s
    · split <;> exact .refl s
  | canxchg p => exact runsBlock_payload hc p (fun _ => rfl) fun _ s => by unfold actCanxchg; split <;> exact .refl s
  | rdxchg p => exact runsBlock_payload hc p (fun _ => rfl) fun _ s => by unfold actRdxchg; split <;> exact .refl s
  | restore p => exact runsBlock_payload hc p (fun _ => rfl) actRestore_kept
  | rdatt p => exact runsBlock_payload hc p (fun _ => rfl) fun _ => actRdatt_kept
  | setmask p => exact runsBlock_payload hc p (fun _ => rfl) actSetmask_kept
  | odometerPulse | fixIntervalExpiry | holdExpiry | markerStrobe | markerMessage | markerMessageCutShort | fence
  | planEntryServed | manualExchangeStart | frameSent | replyReceived | replyCutShort | replyTimeout | settlingDone
  | frameClosed | frameAborted | answerSent | softwareReset | pinReset | powerOn | replyStartBit | replyByteTaken
  | linkCharacter | markerByte | resetNRelease => exact nomatch hc

end Sys2Proof.Machine
end

section
/-! SUPPORT. What the rows of the route link make of the receiver and of a frame, case by case (R161 to R166; logs 9 and
10). -/

namespace Sys2Proof.Machine

/-! ### The parts a change of the port leaves -/

/-- A change of the port that spares causes, CARS bits and masks is no change of a part. -/
theorem KeptBut.setLink_quiet {named : List Block} {s u : State} (h : KeptBut named s u) {l : LinkPort}
    (hcauses : l.causes = u.link.causes) (hcars : l.cars = u.link.cars) (hmasks : l.masks = u.link.masks) :
    KeptBut named s (u.setLink l) := by
  obtain ⟨hk, h1, h2, h3⟩ := h
  refine ⟨fun b => ?_, h1, h2, h3⟩
  cases b
  case attention =>
    refine (hk .attention).imp id fun ⟨hc, hr, hm⟩ => ?_
    exact ⟨hcauses.trans hc, hcars.trans hr, hmasks.trans hm⟩
  all_goals exact hk _

theorem KeptBut.setLink {named : List Block} {s u : State} (h : KeptBut named s u) (l : LinkPort)
    (ha : Block.attention ∈ named) : KeptBut named s (u.setLink l) := by
  obtain ⟨hk, h1, h2, h3⟩ := h
  refine ⟨fun b => ?_, h1, h2, h3⟩
  cases b
  case attention => exact Or.inl ha
  all_goals exact hk _

theorem setReceiver_keptBut (s : State) (r : Receiver) : KeptBut [] s (s.setReceiver r) :=
  (KeptBut.refl [] s).setLink_quiet rfl rfl rfl

/-! ### The flags -/

theorem flagMarksOpened_eq (ok : Bool) : flagMarksOpened ok = (!ok && Config.badFlagMarksOpenedFrame) := by
  cases ok <;> rfl

theorem flagMarksClosed_iff (ok : Bool) :
    flagMarksClosed ok = true ↔ ok = false ∧ Config.badFlagMarksClosedFrame = true := by
  cases ok <;> simp [flagMarksClosed]

/-! ### A character in each phase -/

section
variable {s : State} {c : Byte} (ok : Bool)

theorem linkCharacter_hunt_flag (hp : s.link.receiver.phase = .hunt) :
    s.linkCharacter linkFlag ok = s.setReceiver (.opened (flagMarksOpened ok)) := by
  simp [State.linkCharacter, hp]

theorem linkCharacter_hunt_other (hp : s.link.receiver.phase = .hunt) (hc : c ≠ linkFlag) :
    s.linkCharacter c ok = s := by
  simp [State.linkCharacter, hp, hc]

theorem linkCharacter_frame_flag (hp : s.link.receiver.phase = .frame) :
    s.linkCharacter linkFlag ok = s.closeFrame ok := by
  simp [State.linkCharacter, hp]

theorem linkCharacter_frame_escape (hp : s.link.receiver.phase = .frame) : s.linkCharacter linkEscape ok =
    s.setReceiver { s.link.receiver with phase := .escape, stopBad := s.link.receiver.stopBad || !ok } := by
  simp [State.linkCharacter, hp, linkEscape, linkFlag]

theorem linkCharacter_frame_other (hp : s.link.receiver.phase = .frame) (hc : c ≠ linkFlag) (he : c ≠ linkEscape) :
    s.linkCharacter c ok = s.setReceiver (s.link.receiver.add c ok) := by
  simp [State.linkCharacter, hp, hc, he]

theorem linkCharacter_escape_flag (hp : s.link.receiver.phase = .escape) :
    s.linkCharacter linkFlag ok = s.abortFrame ok := by
  simp [State.linkCharacter, hp]

theorem linkCharacter_escape_other (hp : s.link.receiver.phase = .escape) (hc : c ≠ linkFlag) :
    s.linkCharacter c ok = s.setReceiver (s.link.receiver.add (c ^^^ 0x20#8) ok) := by
  simp [State.linkCharacter, hp, hc]

end

/-! ### The rows, with RESET_N released -/

section
variable {s : State} (hr : s.resetHeld = false) (ok : Bool)
include hr

theorem exec_linkCharacter (c : Byte) : exec (.linkCharacter c ok) s = .next (s.linkCharacter c ok) :=
  unlessHeld_released hr

theorem exec_frameClosed (hp : s.link.receiver.phase = .frame) : exec (.frameClosed ok) s = .next (s.closeFrame ok) :=
  (unlessHeld_released hr).trans (congrArg _ (if_pos hp))

theorem exec_frameAborted (hp : s.link.receiver.phase = .escape) :
    exec (.frameAborted ok) s = .next (s.abortFrame ok) :=
  (unlessHeld_released hr).trans (congrArg _ (if_pos hp))

theorem exec_frameClosed_elsewhere (hp : s.link.receiver.phase ≠ .frame) : exec (.frameClosed ok) s = .next s :=
  (unlessHeld_released hr).trans (congrArg _ (if_neg hp))

theorem exec_frameAborted_elsewhere (hp : s.link.receiver.phase ≠ .escape) : exec (.frameAborted ok) s = .next s :=
  (unlessHeld_released hr).trans (congrArg _ (if_neg hp))

theorem exec_answerSent (hp : s.link.phase = .answering) : exec .answerSent s = .next s.endAnswer :=
  (unlessHeld_released hr).trans (congrArg _ (if_pos hp))

theorem exec_answerSent_elsewhere (hp : s.link.phase ≠ .answering) : exec .answerSent s = .next s :=
  (unlessHeld_released hr).trans (congrArg _ (if_neg hp))

theorem exec_softwareReset_elsewhere (hg : s.mode.resetStage ≠ .due) : exec .softwareReset s = .next s :=
  (unlessHeld_released hr).trans (congrArg _ (if_neg hg))

end

/-! ### A frame judged (R164) -/

section
variable {t : Straps} {r : Receiver} {bad : Bool}

theorem checkAgrees_iff (bytes : List Byte) : checkAgrees bytes = true ↔
    checkOf (bytes.take (bytes.length - 2)) = wordAt bytes (bytes.length - 2) := decide_eq_true_iff

theorem judgeClosed_ignored (h : namesPart t r.content = false ∨ r.count < 4) : judgeClosed t r bad = .ignored := by
  unfold judgeClosed
  split
  · rfl
  · rename_i hnames
    exact if_pos (h.resolve_left fun hn => hnames (by rw [hn]; rfl))

section
variable (hnames : namesPart t r.content = true) (hfour : 4 ≤ r.count)
include hnames hfour

/-- A frame of four bytes or more that names the part is judged by its length and then by its check. -/
theorem judgeClosed_named : judgeClosed t r bad =
    if 64 < r.count then .notTaken .longFrame (echoByte r.content)
    else if r.stopBad || bad || !checkAgrees r.content then .notTaken .failedCheck (echoByte r.content)
    else .taken (echoByte r.content) r.content :=
  (if_neg (by rw [hnames]; exact Bool.false_ne_true)).trans (if_neg (Nat.not_lt.2 hfour))

theorem judgeClosed_long (hlong : 64 < r.count) :
    judgeClosed t r bad = .notTaken .longFrame (echoByte r.content) :=
  (judgeClosed_named hnames hfour).trans (if_pos hlong)

theorem judgeClosed_failedCheck (hfits : r.count ≤ 64)
    (hfails : (r.stopBad || bad || !checkAgrees r.content) = true) :
    judgeClosed t r bad = .notTaken .failedCheck (echoByte r.content) :=
  (judgeClosed_named hnames hfour).trans ((if_neg (Nat.not_lt.2 hfits)).trans (if_pos hfails))

theorem judgeClosed_taken (hfits : r.count ≤ 64) (hgood : ¬ (r.stopBad || bad || !checkAgrees r.content) = true) :
    judgeClosed t r bad = .taken (echoByte r.content) r.content :=
  (judgeClosed_named hnames hfour).trans ((if_neg (Nat.not_lt.2 hfits)).trans (if_neg hgood))

theorem judgeClosed_ne_ignored : judgeClosed t r bad ≠ .ignored := by
  rw [judgeClosed_named hnames hfour]
  split
  · exact nofun
  · split <;> exact nofun

end

/-- A frame Taken is dealt with by its second byte, the command code (R164). -/
theorem code_of_judgeClosed {code : Byte} {kept : List Byte} (h : judgeClosed t r bad = .taken code kept) :
    code = byteAt kept 1 := by
  unfold judgeClosed at h
  split at h
  · exact nomatch h
  · split at h
    · exact nomatch h
    · split at h
      · exact nomatch h
      · split at h
        · exact nomatch h
        · cases h
          rfl

theorem judgeAborted_ne_taken {code : Byte} {kept : List Byte} : judgeAborted t r ≠ .taken code kept := by
  unfold judgeAborted
  split <;> exact nofun

end

/-! ### A judged frame received (R164 to R166) -/

section
variable {s : State} {content : List Byte}

theorem portBusy_iff (s : State) : s.portBusy = true ↔ s.link.phase ≠ .idle ∨ s.mode.resetStage ≠ .none := by
  simp only [State.portBusy, State.resetAhead, Bool.or_eq_true, decide_eq_true_eq]

theorem not_portBusy_iff (s : State) : s.portBusy = false ↔ s.link.phase = .idle ∧ s.mode.resetStage = .none := by
  rw [← Bool.not_eq_true, portBusy_iff, not_or, Decidable.not_not, Decidable.not_not]

theorem receive_busy {j : FrameJudgement} (hj : j ≠ .ignored) (hb : s.portBusy = true) :
    s.receive j content = s.setLink s.link.drop := by
  cases j with
  | ignored => exact absurd rfl hj
  | notTaken t echo => exact if_pos hb
  | taken code kept => exact if_pos hb

theorem receive_notTaken (t : AnswerStatus) (echo : Byte) (hb : s.portBusy = false) :
    s.receive (.notTaken t echo) content = s.setLink (s.link.answerNotTaken content t echo) :=
  if_neg (by rw [hb]; exact Bool.false_ne_true)

theorem receive_taken (code : Byte) (kept : List Byte) (hb : s.portBusy = false) :
    s.receive (.taken code kept) content = s.dealFrame code kept :=
  if_neg (by rw [hb]; exact Bool.false_ne_true)

theorem dealFrame_unknown {code : Byte} (h : CommandCode.ofByte code = none) : s.dealFrame code content =
    s.setLink ((s.link.takeFrame content).respond
      { code := code, status := .taken, result := .unknownCommand, payload := .empty }) := by
  simp [State.dealFrame, h]

theorem dealFrame_wrongMode {code : Byte} {c : CommandCode} (h : CommandCode.ofByte code = some c)
    (ha : c.available s.mode.mode = false) : s.dealFrame code content =
      s.setLink ((s.link.takeFrame content).respond
        { code := c.byte, status := .taken, result := .wrongMode, payload := .empty }) := by
  simp [State.dealFrame, h, ha, State.answer]

theorem dealFrame_acting {code : Byte} {c : CommandCode} (h : CommandCode.ofByte code = some c)
    (ha : c.available s.mode.mode = true) : s.dealFrame code content = s.setLink (s.link.takeFrame content) := by
  simp [State.dealFrame, h, ha]

end

end Sys2Proof.Machine
end

section
/-! PROOFS. Every step keeps the port's answer side, its receiver, its words and its counts sound, and the stage of a
RESET in step with the answer side. -/

namespace Sys2Proof.Machine

/-! ### Command rows -/

section
variable {s : State} (hs : s.portSound)
include hs

/-- A frame dropped is counted, and raises FRAME_DROPPED (R165). -/
theorem drop_portSound : (s.setLink s.link.drop).portSound := by
  rw [portSound_iff] at hs ⊢
  obtain ⟨hside, hstage, hreceiver, hwords, htaken, hnotTaken, _⟩ := hs
  exact ⟨hside, hstage, hreceiver, wordsSound_raiseIf hwords true .frameDropped, htaken, hnotTaken, bump_le _⟩

/-- The frame of a row taken in stands in the buffer, with its answer going out (R165 to R167). -/
theorem answer_portSound {u : State} {i : Instr} {c : CommandCode} (ht : s.takes i) (hc : i.code? = some c)
    (hu : ActKept (s.admitted c) u) (r : ResultCode) (p : AnswerPayload) : (u.answer c r p).portSound := by
  obtain ⟨hlink, hstage, hwords⟩ := hu
  obtain ⟨_, _, hbuffer, htaken, hreceiver, hnotTaken, hdropped⟩ := answered_of_takes r p ht hc hlink
  rw [portSound_iff] at hs ⊢
  obtain ⟨_, _, hsreceiver, hswords, hstaken, hsnotTaken, hsdropped⟩ := hs
  refine ⟨(sideSound_answering rfl).2 ⟨?_, rfl⟩, ?_, hreceiver ▸ hsreceiver, ?_, ?_, ?_, ?_⟩
  · obtain ⟨b, hb, _⟩ := Option.bind_eq_some_iff.1 hbuffer
    exact hb ▸ rfl
  · obtain ⟨_, hnone, _⟩ := ht
    change u.mode.resetStage.inStep .answering
    rcases hstage with hsame | hanswering
    · rw [hsame, State.admitted_mode, hnone]
      trivial
    · rw [hanswering]
      rfl
  · exact hwords (by simpa [LinkPort.wordsSound] using hswords)
  · rw [htaken]; split <;> omega
  · exact hnotTaken ▸ hsnotTaken
  · exact hdropped ▸ hsdropped

/-- A link command row is held, dropped, refused WRONG_MODE, or acted on (R165, R166, R176, R183). -/
theorem runCommand_portSound {t : State} {i : Instr} {c : CommandCode} (hc : i.code? = some c)
    {owner : State → CommandResult} (howner : ∀ u, ActKept u (owner u).state)
    (h : runCommand c i owner s = .next t) : t.portSound := by
  by_cases hr : s.resetHeld = true
  · rw [runCommand_held owner hr] at h
    cases h
    exact hs
  · by_cases ht : s.takes i
    · cases ha : c.available s.mode.mode with
      | true =>
        rw [runCommand_taken owner ht hc ha] at h
        cases h
        exact answer_portSound hs ht hc (howner _) _ _
      | false =>
        rw [runCommand_wrongMode owner ht hc ha] at h
        cases h
        exact answer_portSound hs ht hc (PortKept.refl _).act _ _
    · rw [runCommand_busy owner (eq_false_of_ne_true hr) hc ht] at h
      cases h
      exact drop_portSound hs

/-! ### Characters and frames -/

theorem setReceiver_portSound {r : Receiver} (hr : r.sound) : (s.setReceiver r).portSound := by
  rw [portSound_iff] at hs ⊢
  obtain ⟨hside, hstage, _, hwords, hcounts⟩ := hs
  exact ⟨hside, hstage, hr, hwords, hcounts⟩

/-- A frame NOT_TAKEN stands in the buffer, with the port's own answer going out (R164, R165). -/
theorem answerNotTaken_portSound (content : List Byte) (t : AnswerStatus) (echo : Byte) (hb : s.portBusy = false) :
    (s.setLink (s.link.answerNotTaken content t echo)).portSound := by
  obtain ⟨_, hnone⟩ := (not_portBusy_iff s).1 hb
  rw [portSound_iff] at hs ⊢
  obtain ⟨_, _, hreceiver, hwords, htaken, hnotTaken, hdropped⟩ := hs
  refine ⟨⟨rfl, rfl⟩, ?_, hreceiver, wordsSound_raiseIf hwords true .frameBad, htaken, bump_le _, hdropped⟩
  rw [State.setLink_mode, hnone]
  trivial

/-- A frame Taken is answered by the port, or waits, ACTING and with a known code, for its block (R166; log 4). -/
theorem dealFrame_portSound (content : List Byte) (hb : s.portBusy = false) :
    (s.dealFrame (byteAt content 1) content).portSound := by
  obtain ⟨hidle, hnone⟩ := (not_portBusy_iff s).1 hb
  rw [portSound_iff] at hs
  obtain ⟨hside, _, hreceiver, hwords, _, hcounts⟩ := hs
  obtain ⟨_, hanswer⟩ := (sideSound_idle hidle).1 hside
  have hstep : ∀ p, s.mode.resetStage.inStep p := fun p => by rw [hnone]; trivial
  have hcounted : (s.link.takeFrame content).countsSound := ⟨bump_le _, hcounts⟩
  cases hcode : CommandCode.ofByte (byteAt content 1) with
  | none =>
    rw [dealFrame_unknown hcode, portSound_iff]
    exact ⟨⟨rfl, rfl⟩, hstep _, hreceiver, hwords, hcounted⟩
  | some c =>
    cases ha : c.available s.mode.mode with
    | false =>
      rw [dealFrame_wrongMode hcode ha, portSound_iff]
      exact ⟨⟨rfl, rfl⟩, hstep _, hreceiver, hwords, hcounted⟩
    | true =>
      rw [dealFrame_acting hcode ha, portSound_iff]
      exact ⟨⟨⟨c, hcode⟩, hanswer⟩, hstep _, hreceiver, hwords, hcounted⟩

/-- What keeps ACTING sound is that a frame Taken is dealt with by the code that stands in it. -/
theorem receive_portSound {j : FrameJudgement} (hj : ∀ code kept, j = .taken code kept → code = byteAt kept 1)
    (content : List Byte) : (s.receive j content).portSound := by
  cases j with
  | ignored => exact hs
  | notTaken t echo =>
    cases hb : s.portBusy with
    | true =>
      rw [receive_busy (by simp) hb]
      exact drop_portSound hs
    | false => exact receive_notTaken t echo hb ▸ answerNotTaken_portSound hs content t echo hb
  | taken code kept =>
    cases hb : s.portBusy with
    | true =>
      rw [receive_busy (by simp) hb]
      exact drop_portSound hs
    | false =>
      obtain rfl := hj code kept rfl
      exact receive_taken _ kept hb ▸ dealFrame_portSound hs kept hb

theorem closeFrame_portSound (ok : Bool) : (s.closeFrame ok).portSound :=
  receive_portSound (setReceiver_portSound hs (opened_sound _)) (fun _ _ => code_of_judgeClosed) _

theorem abortFrame_portSound (ok : Bool) : (s.abortFrame ok).portSound :=
  receive_portSound (setReceiver_portSound hs (opened_sound _)) (fun _ _ h => absurd h judgeAborted_ne_taken) _

/-- The byte added is kept while there is room, and counted in any case (R162). -/
theorem addCharacter_portSound (c : Byte) (ok : Bool) : (s.setReceiver (s.link.receiver.add c ok)).portSound := by
  obtain ⟨_, _, ⟨hkept, _⟩, _⟩ := (portSound_iff s).1 hs
  refine setReceiver_portSound hs ⟨?_, nofun⟩
  unfold Receiver.add contentKept
  by_cases hroom : s.link.receiver.content.length < 64
  · simp only [if_pos hroom, List.length_append, List.length_singleton]
    omega
  · simp only [if_neg hroom]
    omega

theorem linkCharacter_portSound (c : Byte) (ok : Bool) : (s.linkCharacter c ok).portSound := by
  obtain ⟨_, _, ⟨hkept, _⟩, _⟩ := (portSound_iff s).1 hs
  cases hp : s.link.receiver.phase with
  | hunt =>
    by_cases hc : c = linkFlag
    · rw [hc, linkCharacter_hunt_flag ok hp]
      exact setReceiver_portSound hs (opened_sound _)
    · rw [linkCharacter_hunt_other ok hp hc]
      exact hs
  | frame =>
    by_cases hc : c = linkFlag
    · rw [hc, linkCharacter_frame_flag ok hp]
      exact closeFrame_portSound hs ok
    · by_cases he : c = linkEscape
      · rw [he, linkCharacter_frame_escape ok hp]
        exact setReceiver_portSound hs ⟨hkept, nofun⟩
      · rw [linkCharacter_frame_other ok hp hc he]
        exact addCharacter_portSound hs c ok
  | escape =>
    by_cases hc : c = linkFlag
    · rw [hc, linkCharacter_escape_flag ok hp]
      exact abortFrame_portSound hs ok
    · rw [linkCharacter_escape_other ok hp hc]
      exact addCharacter_portSound hs _ ok

/-! ### The end of an answer and the resets -/

/-- Once its answer has been sent, a software reset that waited is due in IDLE (R165, R166; log 14). -/
theorem endAnswer_portSound : s.endAnswer.portSound := by
  rw [portSound_iff] at hs ⊢
  obtain ⟨_, _, hreceiver, hwords, hcounts⟩ := hs
  refine ⟨⟨rfl, rfl⟩, ?_, hreceiver, hwords, hcounts⟩
  change s.mode.resetStage.answered.inStep .idle
  cases s.mode.resetStage with
  | none => trivial
  | answering => rfl
  | due => rfl

/-- A software reset clears the causes and keeps the masks, the receiver and the counts (R172). -/
theorem softReset_portSound : s.softReset.portSound := by
  rw [portSound_iff] at hs ⊢
  obtain ⟨_, _, hreceiver, ⟨_, _, hmasks⟩, hcounts⟩ := hs
  exact ⟨⟨rfl, rfl⟩, trivial, hreceiver, ⟨BitVec.getLsbD_zero, BitVec.getLsbD_zero, hmasks⟩, hcounts⟩

end

/-! ### The rows -/

/-- exec keeps the port sound: a command by its block's act, a row of the link by what it makes of the frame, a reset by
its values, and every other row because it leaves the link side. -/
theorem exec_portSound (i : Instr) (s t : State) (hs : s.portSound) (h : exec i s = .next t) : t.portSound := by
  cases hc : i.code? with
  | some c =>
    obtain ⟨owner, hexec, howner⟩ := runsBlock_of_code hc
    exact runCommand_portSound hs hc howner ((hexec s).symm.trans h)
  | none =>
    have event : ∀ {u : State}, PortKept s u → unlessHeld s u = .next t → t.portSound := fun hu =>
      unlessHeld_keeps hs (hu.sound hs)
    have refl := PortKept.refl s
    cases i with
    | start | run | stby | hold | stop | reset | rdstat | setcal | setpos | setfix | rdpos | openr | putp | contp
    | closer | abandr | wdraw | wdsect | clrtab | rdrec | rdslot | findat | tsum | cover | setcyc | setcomp | settrav | rdcomp
    | setlim | rdcar | setbus | ldplan | canplan | canstby | xchg | canxchg | rdxchg | restore | rdatt | setmask =>
      exact nomatch hc
    | odometerPulse d => exact event (PortKept.movePulse s d).checkInterval.checkHold h
    | fixIntervalExpiry => exact event refl.checkInterval h
    | holdExpiry => exact event refl.checkHold h
    | markerStrobe => exact event (PortKept.raiseIf (u := s.setPosition s.strobe.position) refl _ _) h
    | markerByte b ok => exact event (refl.markerByte b ok) h
    | markerMessage b ok =>
      refine event ?_ h
      split
      · exact refl
      · split
        · exact refl.takeMessage _
        · exact refl
    | markerMessageCutShort => exact event (by split <;> exact refl) h
    | fence => exact event (by split; exact .takeFence s; exact refl) h
    | planEntryServed => exact event (by split <;> exact refl) h
    | manualExchangeStart => exact event (by split <;> exact refl) h
    | frameSent => exact event (by split <;> exact refl) h
    | replyStartBit => exact event (by split <;> exact refl) h
    | settlingDone => exact event (by split <;> exact refl) h
    | replyByteTaken b ok => exact event (by split; exact refl; exact refl.replyByte _ b ok) h
    | replyReceived b ok =>
      refine event ?_ h
      split
      · exact refl
      · split
        · exact refl.takeOutcome _ _ _
        · exact refl
    | replyCutShort =>
      refine event ?_ h
      split
      · exact refl
      · split
        · exact refl
        · exact refl.takeOutcome _ _ _
    | replyTimeout => exact event (by split; exact refl; exact refl.takeOutcome _ _ _) h
    | linkCharacter c ok => exact unlessHeld_keeps hs (linkCharacter_portSound hs c ok) h
    | frameClosed ok => exact unlessHeld_keeps hs (by split; exact closeFrame_portSound hs ok; exact hs) h
    | frameAborted ok => exact unlessHeld_keeps hs (by split; exact abortFrame_portSound hs ok; exact hs) h
    | answerSent => exact unlessHeld_keeps hs (by split; exact endAnswer_portSound hs; exact hs) h
    | softwareReset => exact unlessHeld_keeps hs (by split; exact softReset_portSound hs; exact hs) h
    | pinReset straps => cases h; exact reset_portSound
    | powerOn straps => cases h; exact reset_portSound
    | resetNRelease => cases h; exact hs

/-- Settles O17: the front row's exec keeps the port sound, whichever row it is. -/
theorem portStaysSound : Obligations.PortStaysSound := step_keeps (fun _ _ h => h) exec_portSound

end Sys2Proof.Machine
end

section
/-! PROOFS. The busy port, and RESET with the software reset that waits for its answer. -/

namespace Sys2Proof.Machine

/-! ### The busy port -/

theorem drop_keptBut (s : State) : KeptBut [.attention] s (s.setLink s.link.drop) :=
  (KeptBut.refl _ s).setLink _ (by simp)

theorem drop_raised (s : State) : Raised [.frameDropped] s (s.setLink s.link.drop) := ⟨rfl, rfl, rfl⟩

/-- Settles O5: every link command row runs its block, and with a busy port is dropped before the block is asked. -/
theorem busyPortDropsCommands : Obligations.BusyPortDropsCommands := by
  intro i s c hc hr hs
  obtain ⟨owner, hexec, _⟩ := runsBlock_of_code hc
  exact ⟨_, (hexec s).trans (runCommand_busy owner hr hc hs), drop_keptBut s, drop_raised s, rfl, rfl, rfl, rfl, rfl,
    rfl, rfl⟩

/-! ### RESET -/

/-- A software reset that waits falls due, and none falls due unasked (R166, R183; log 14). -/
theorem answered_eq (g : ResetStage) : g.answered = if g = .none then .none else .due := by cases g <;> rfl

theorem endAnswer_mode (s : State) : s.endAnswer.mode =
    { s.mode with resetStage := if s.mode.resetStage = .none then .none else .due } := by
  rw [← answered_eq]
  rfl

theorem endAnswer_keptBut (s : State) : KeptBut [.mode] s s.endAnswer :=
  ((KeptBut.refl _ s).setLink_quiet rfl rfl rfl).setMode _ (by simp)

/-- Settles O23: RESET marks the software reset as waiting, and the end of its answer makes it due. -/
theorem resetWaitsForItsAnswer : Obligations.ResetWaitsForItsAnswer := by
  refine ⟨fun s hs => ?_, fun s hr hp => ?_, fun s hr hp => ?_, fun s hr hg => ?_⟩
  · exact runCommand_answers (owner := actReset ()) _ hs rfl rfl rfl (LinkKept.refl (s.admitted .reset))
      ((KeptBut.refl _ (s.admitted .reset)).setMode _ (by simp)) rfl
  · exact ⟨s.endAnswer, exec_answerSent hr hp, endAnswer_keptBut s, rfl, endAnswer_mode s⟩
  · exact exec_answerSent_elsewhere hr hp
  · exact exec_softwareReset_elsewhere hr hg

end Sys2Proof.Machine
end

section
/-! PROOFS. RDATT, SETMASK and ATTN_N. -/

namespace Sys2Proof.Machine

/-! ### Bits of a word -/

/-- A word is another than 0 where it has a bit set. -/
theorem ne_zero_iff_bit (w : Word) : w ≠ 0 ↔ ∃ n, w.getLsbD n = true := by
  constructor
  · intro hw
    refine Classical.byContradiction fun hnone => hw (BitVec.eq_of_getLsbD_eq fun n _ => ?_)
    exact (eq_false_of_ne_true fun hn => hnone ⟨n, hn⟩).trans BitVec.getLsbD_zero.symm
  · rintro ⟨n, hn⟩ rfl
    exact Bool.false_ne_true (BitVec.getLsbD_zero.symm.trans hn)

/-- A group of the bits from one place up to another is set where one of them is. -/
theorem groupSet_iff {group : Word} (low high : Nat)
    (hgroup : ∀ n : Fin 16, group.getLsbD n = decide (low ≤ n.val ∧ n.val < high)) (w : Word) :
    groupSet w group = true ↔ ∃ n, low ≤ n ∧ n < high ∧ w.getLsbD n = true := by
  rw [groupSet, decide_eq_true_eq, ne_zero_iff_bit]
  refine exists_congr fun n => ?_
  rw [BitVec.getLsbD_and, Bool.and_eq_true, ← and_assoc, and_comm]
  refine and_congr_left fun hn => ?_
  rw [hgroup ⟨n, BitVec.lt_of_getLsbD hn⟩, decide_eq_true_eq]

/-- A group of one bit. -/
theorem groupSet_iff_bit {group : Word} (place : Nat) (hgroup : ∀ n : Fin 16, group.getLsbD n = decide (n.val = place))
    (w : Word) : groupSet w group = true ↔ w.getLsbD place = true := by
  rw [groupSet_iff place (place + 1) fun n => (hgroup n).trans (decide_eq_decide.2 (by omega))]
  constructor
  · rintro ⟨n, hlow, hhigh, hn⟩
    obtain rfl : n = place := by omega
    exact hn
  · exact fun hn => ⟨place, Nat.le_refl _, Nat.lt_succ_self _, hn⟩

/-! ### The bytes of RDATT's answer -/

theorem countBytes_eq (n : Nat) : countBytes n = [BitVec.ofNat 8 n, BitVec.ofNat 8 (n % 65536 / 256)] := by
  have hlow : (BitVec.ofNat 16 n).truncate 8 = BitVec.ofNat 8 n := by
    apply BitVec.eq_of_toNat_eq
    simp
  have hhigh : (BitVec.ofNat 16 n >>> 8).truncate 8 = BitVec.ofNat 8 (n % 65536 / 256) := by
    apply BitVec.eq_of_toNat_eq
    simp [Nat.shiftRight_eq_div_pow]
  rw [countBytes, wordBytes, hlow, hhigh]

/-- A byte of six flags, and each of its bits. -/
theorem sixFlags_bits (a b c d e f : Bool) : ∀ group : Byte,
    group = ((if a then 0x01#8 else 0) ||| (if b then 0x02#8 else 0) ||| (if c then 0x04#8 else 0)
      ||| (if d then 0x08#8 else 0) ||| (if e then 0x10#8 else 0) ||| (if f then 0x20#8 else 0)) →
    group.getLsbD 0 = a ∧ group.getLsbD 1 = b ∧ group.getLsbD 2 = c ∧ group.getLsbD 3 = d ∧ group.getLsbD 4 = e
      ∧ group.getLsbD 5 = f ∧ group.getLsbD 6 = false ∧ group.getLsbD 7 = false := by
  rintro _ rfl
  revert a b c d e f
  decide

/-- The group summary has a bit for each group that has a cause set (R168, 10.5). -/
theorem groupSummary_bits (w : Word) : ((groupSummary w).getLsbD 0 ↔ ∃ n, n < 4 ∧ w.getLsbD n)
    ∧ ((groupSummary w).getLsbD 1 ↔ ∃ n, 4 ≤ n ∧ n < 8 ∧ w.getLsbD n)
    ∧ ((groupSummary w).getLsbD 2 ↔ w.getLsbD 8)
    ∧ ((groupSummary w).getLsbD 3 ↔ ∃ n, 9 ≤ n ∧ n < 12 ∧ w.getLsbD n)
    ∧ ((groupSummary w).getLsbD 4 ↔ ∃ n, 12 ≤ n ∧ n < 14 ∧ w.getLsbD n)
    ∧ ((groupSummary w).getLsbD 5 ↔ w.getLsbD 14)
    ∧ (groupSummary w).getLsbD 6 = false ∧ (groupSummary w).getLsbD 7 = false := by
  obtain ⟨h0, h1, h2, h3, h4, h5, h6, h7⟩ := sixFlags_bits _ _ _ _ _ _ (groupSummary w) rfl
  rw [h0, h1, h2, h3, h4, h5]
  refine ⟨?_, groupSet_iff 4 8 (by decide) w, groupSet_iff_bit 8 (by decide) w, groupSet_iff 9 12 (by decide) w,
    groupSet_iff 12 14 (by decide) w, groupSet_iff_bit 14 (by decide) w, h6, h7⟩
  rw [groupSet_iff 0 4 (by decide) w]
  simp only [Nat.zero_le, true_and]

/-! ### RDATT -/

/-- With every cause cleared no cause is set whose mask is clear, and ATTN_N is high (R169, R170). -/
theorem clearCauses_attnLow (l : LinkPort) : l.clearCauses.attnLow = false := by
  simp [LinkPort.attnLow, LinkPort.causeWord, LinkPort.clearCauses]

/-- Settles O47: the answer is formed of the port that has counted the frame, and its bytes are those of the words. -/
theorem rdattReturnsAndClears : Obligations.RdattReturnsAndClears := by
  refine ⟨fun s hs => ?_, fun r => ⟨groupSummary r.causeWord, ?_, groupSummary_bits _⟩⟩
  · obtain ⟨t, hexec, hanswered, hkept, hport⟩ := runCommand_answers (owner := actRdatt ()) _ hs rfl rfl rfl
      (LinkKept.refl (s.admitted .rdatt)) ((KeptBut.refl [.attention] (s.admitted .rdatt)).setLink _ (by simp))
      (Q := fun t => t.link.causes = 0 ∧ t.link.cars = 0 ∧ t.link.masks = s.link.masks ∧ t.attnLow = false
        ∧ t.link.taken = (s.link.admitted .rdatt).taken)
      ⟨rfl, rfl, LinkPort.admitted_masks _ _, clearCauses_attnLow _, rfl⟩
    obtain ⟨hcauses, hcars, hmasks, hattn, htaken⟩ := hport
    refine ⟨t, _, hexec, hanswered, hkept, hcauses, hcars, hmasks, hattn, ?_, LinkPort.admitted_cars _ _,
      LinkPort.admitted_masks _ _, htaken.symm, LinkPort.admitted_notTaken _ _, LinkPort.admitted_dropped _ _⟩
    simp only [LinkPort.attentionReport, LinkPort.causeWord, State.admitted_link, LinkPort.admitted_causes,
      LinkPort.admitted_cars]
    rfl
  · simp only [AnswerPayload.bytes, AttentionReport.bytes, countBytes_eq, wordBytes, List.cons_append, List.nil_append]

/-! ### SETMASK and ATTN_N -/

theorem actSetmask_badParam {w : Word} (h : w.getLsbD 15 = true) (s : State) : actSetmask w s = .refuse s .badParam :=
  if_pos h

theorem actSetmask_sets {w : Word} (h : w.getLsbD 15 = false) (s : State) : actSetmask w s =
    { state := s.setLink { s.link with masks := w }, result := .done, payload := .masks w } :=
  if_neg (by rw [BitVec.msb_eq_getLsbD_last, h]; exact Bool.false_ne_true)

/-- Every place of the cause word up to bit 14 is that of a cause, but for that of CARS (10.5). -/
theorem Cause.exists_bit {n : Nat} (hn : n < 15) (h8 : n ≠ 8) : ∃ c : Cause, c.bit = n :=
  match n with
  | 0 => ⟨.retired, rfl⟩
  | 1 => ⟨.horizonShort, rfl⟩
  | 2 => ⟨.poolLow, rfl⟩
  | 3 => ⟨.fadeDone, rfl⟩
  | 4 => ⟨.lockChanged, rfl⟩
  | 5 => ⟨.fixRejected, rfl⟩
  | 6 => ⟨.markerUnmatched, rfl⟩
  | 7 => ⟨.markerOverrun, rfl⟩
  | 8 => absurd rfl h8
  | 9 => ⟨.overrun, rfl⟩
  | 10 => ⟨.swapped, rfl⟩
  | 11 => ⟨.manualDone, rfl⟩
  | 12 => ⟨.frameDropped, rfl⟩
  | 13 => ⟨.frameBad, rfl⟩
  | 14 => ⟨.modeChanged, rfl⟩
  | n + 15 => absurd hn (by omega)

/-- The cause word shows the causes, and CARS in bit 8 while its bitmap is not 0 (R169, 10.5). -/
theorem causeWord_bit (l : LinkPort) (n : Nat) :
    l.causeWord.getLsbD n = true ↔ l.causes.getLsbD n = true ∨ l.cars ≠ 0 ∧ n = 8 := by
  have hcars : (bitWord carsBit).getLsbD n = true ↔ n = 8 := by
    have hbit : ∀ m : Fin 16, (bitWord carsBit).getLsbD m = true → m.val = 8 := by decide
    exact ⟨fun hn => hbit ⟨n, BitVec.lt_of_getLsbD hn⟩ hn, fun hn => hn ▸ rfl⟩
  unfold LinkPort.causeWord
  split
  · rename_i hnone
    exact ⟨Or.inl, fun h => h.resolve_right fun ⟨hsome, _⟩ => hsome hnone⟩
  · rename_i hsome
    rw [BitVec.getLsbD_or, Bool.or_eq_true, hcars, and_iff_right hsome]

theorem attnLow_iff (l : LinkPort) : l.attnLow = true ↔
    ∃ n, l.causeWord.getLsbD n = true ∧ l.masks.getLsbD n = false := by
  rw [LinkPort.attnLow, decide_eq_true_eq, ne_zero_iff_bit]
  refine exists_congr fun n => ?_
  rw [BitVec.getLsbD_and, BitVec.getLsbD_not, Bool.and_eq_true]
  refine and_congr_right fun hn => ?_
  simp [BitVec.lt_of_getLsbD hn]

/-- Settles O48: the branches of SETMASK's act, and the bits of the cause word that the masks leave. -/
theorem masksGovernTheAttentionLine : Obligations.MasksGovernTheAttentionLine := by
  refine ⟨fun s w hs => ⟨fun hw => ?_, fun hw => ?_⟩, fun w => rfl, fun s hs => ?_⟩
  · exact runCommand_answers_unchanged (owner := actSetmask w) hs rfl rfl (actSetmask_badParam hw _)
  · exact runCommand_answers (owner := actSetmask w) _ hs rfl rfl (actSetmask_sets hw _)
      (LinkKept.refl (s.admitted .setmask)) ((KeptBut.refl _ (s.admitted .setmask)).setLink _ (by simp))
      ⟨LinkPort.admitted_causes _ _, LinkPort.admitted_cars _ _, rfl⟩
  · obtain ⟨_, _, _, ⟨h8, h15, _⟩, _⟩ := (portSound_iff s).1 hs
    rw [State.attnLow, attnLow_iff]
    constructor
    · rintro ⟨n, hn, hmask⟩
      rcases (causeWord_bit _ _).1 hn with hcause | ⟨hcars, rfl⟩
      · have hlt := BitVec.lt_of_getLsbD hcause
        have hn8 : n ≠ 8 := fun h => Bool.false_ne_true (h8.symm.trans (h ▸ hcause))
        have hn15 : n ≠ 15 := fun h => Bool.false_ne_true (h15.symm.trans (h ▸ hcause))
        obtain ⟨c, rfl⟩ := Cause.exists_bit (n := n) (by omega) hn8
        exact Or.inl ⟨c, hcause, hmask⟩
      · exact Or.inr ⟨hcars, hmask⟩
    · rintro (⟨c, hcause, hmask⟩ | ⟨hcars, hmask⟩)
      · exact ⟨c.bit, (causeWord_bit _ _).2 (Or.inl hcause), hmask⟩
      · exact ⟨8, (causeWord_bit _ _).2 (Or.inr ⟨hcars, rfl⟩), hmask⟩

end Sys2Proof.Machine
end

section
/-! PROOFS. The link receiver, and the judgement of a frame. -/

namespace Sys2Proof.Machine

/-! ### The receiver -/

/-- A flag opens a frame with an empty content, in the words of the statements (R162; log 9). -/
theorem opened_eq (ok : Bool) : Receiver.opened (flagMarksOpened ok) =
    { phase := .frame, content := [], count := 0, stopBad := !ok && Config.badFlagMarksOpenedFrame } := by
  rw [← flagMarksOpened_eq]
  rfl

/-- A row that replaces the receiver, and nothing else. -/
theorem exec_setsReceiver {s : State} {i : Instr} {r : Receiver} (h : exec i s = .next (s.setReceiver r)) :
    ∃ t, exec i s = .next t ∧ KeptBut [] s t ∧ t.link = { s.link with receiver := r } :=
  ⟨_, h, setReceiver_keptBut s r, rfl⟩

/-- Settles O58: what a character makes of the receiver, phase by phase. -/
theorem charactersAreGathered : Obligations.CharactersAreGathered := by
  intro s c ok r hr hreceiver
  subst hreceiver
  have hexec := fun b => exec_linkCharacter hr ok b
  refine ⟨fun hp hc => ?_, fun hp => ?_, fun hp => ?_, fun added hadded => ?_, fun hp => ?_, fun hp => ?_, fun hp => ?_,
    fun hp => ?_⟩
  · exact (hexec c).trans (congrArg _ (linkCharacter_hunt_other ok hp hc))
  · rw [← opened_eq]
    exact exec_setsReceiver ((hexec _).trans (congrArg _ (linkCharacter_hunt_flag ok hp)))
  · exact exec_setsReceiver ((hexec _).trans (congrArg _ (linkCharacter_frame_escape ok hp)))
  · rcases hadded with ⟨hp, hc, he, rfl⟩ | ⟨hp, hc, rfl⟩
    · exact exec_setsReceiver ((hexec _).trans (congrArg _ (linkCharacter_frame_other ok hp hc he)))
    · exact exec_setsReceiver ((hexec _).trans (congrArg _ (linkCharacter_escape_other ok hp hc)))
  · exact (hexec _).trans ((congrArg _ (linkCharacter_frame_flag ok hp)).trans (exec_frameClosed hr ok hp).symm)
  · exact (hexec _).trans ((congrArg _ (linkCharacter_escape_flag ok hp)).trans (exec_frameAborted hr ok hp).symm)
  · exact exec_frameClosed_elsewhere hr ok hp
  · exact exec_frameAborted_elsewhere hr ok hp

/-! ### The judgement of a frame -/

/-- The judgement of a frame closed, or aborted, by a flag (R164). -/
def judgeFlag (aborted : Bool) (t : Straps) (r : Receiver) (ok : Bool) : FrameJudgement :=
  if aborted then judgeAborted t r else judgeClosed t r (flagMarksClosed ok)

/-- Both rows begin a new frame, and then receive the one that they have judged (R162, R164). -/
theorem exec_flag {s : State} {i : Instr} {aborted ok : Bool} (hr : s.resetHeld = false)
    (hi : aborted = false ∧ i = .frameClosed ok ∧ s.link.receiver.phase = .frame
      ∨ aborted = true ∧ i = .frameAborted ok ∧ s.link.receiver.phase = .escape) :
    exec i s = .next ((s.setReceiver (.opened (flagMarksOpened ok))).receive
      (judgeFlag aborted s.straps s.link.receiver ok) s.link.receiver.content) := by
  rcases hi with ⟨rfl, rfl, hp⟩ | ⟨rfl, rfl, hp⟩
  · exact exec_frameClosed hr ok hp
  · exact exec_frameAborted hr ok hp

/-- The check of a frame, in the words of R161 and R163. -/
theorem checkFails_iff (r : Receiver) (ok : Bool) :
    (r.stopBad || flagMarksClosed ok || !checkAgrees r.content) = true ↔
      r.stopBad = true ∨ ok = false ∧ Config.badFlagMarksClosedFrame = true
        ∨ checkOf (r.content.take (r.content.length - 2)) ≠ wordAt r.content (r.content.length - 2) := by
  rw [Bool.or_eq_true, Bool.or_eq_true, flagMarksClosed_iff, Bool.not_eq_true', ← Bool.not_eq_true (checkAgrees _),
    checkAgrees_iff, or_assoc]

section
variable {t : Straps} {r : Receiver} {aborted ok : Bool}

theorem judgeFlag_ignored (h : ¬ namesPart t r.content = true ∨ aborted = false ∧ r.count < 4) :
    judgeFlag aborted t r ok = .ignored := by
  cases aborted with
  | false => exact judgeClosed_ignored (h.imp eq_false_of_ne_true And.right)
  | true => exact if_neg (h.resolve_right (nomatch ·.1))

variable (hnames : namesPart t r.content = true)
include hnames

theorem judgeFlag_ne_ignored (h : aborted = true ∨ 4 ≤ r.count) : judgeFlag aborted t r ok ≠ .ignored := by
  cases aborted with
  | false => exact judgeClosed_ne_ignored hnames (h.resolve_left Bool.false_ne_true)
  | true => exact fun hj => nomatch (if_pos hnames).symm.trans hj

theorem judgeFlag_taken (hfour : 4 ≤ r.count) (hfits : r.count ≤ 64)
    (hgood : ¬ (r.stopBad || flagMarksClosed ok || !checkAgrees r.content) = true) :
    judgeFlag false t r ok = .taken (echoByte r.content) r.content :=
  judgeClosed_taken hnames hfour hfits hgood

theorem judgeFlag_notTaken {status : AnswerStatus}
    (h : aborted = true ∧ status = .abortedFrame
      ∨ aborted = false ∧ 64 < r.count ∧ status = .longFrame
      ∨ aborted = false ∧ 4 ≤ r.count ∧ r.count ≤ 64
        ∧ (r.stopBad || flagMarksClosed ok || !checkAgrees r.content) = true ∧ status = .failedCheck) :
    judgeFlag aborted t r ok = .notTaken status (echoByte r.content) := by
  rcases h with ⟨rfl, rfl⟩ | ⟨rfl, hlong, rfl⟩ | ⟨rfl, hfour, hfits, hfails, rfl⟩
  · exact if_pos hnames
  · exact judgeClosed_long hnames (by omega) hlong
  · exact judgeClosed_failedCheck hnames hfour hfits hfails

end

/-- Settles O59: the judgement of the frame in each case, and what the port makes of a frame so judged. -/
theorem framesAreJudged : Obligations.FramesAreJudged := by
  intro s ok aborted i r opened names checkFails echo hr hreceiver hi hopened hnames hcheck hecho
  subst hreceiver hopened
  obtain rfl : echo = echoByte s.link.receiver.content := hecho
  rw [← namesPart_iff] at hnames
  rw [← checkFails_iff] at hcheck
  rw [← opened_eq]
  have hexec := exec_flag hr hi
  have hkept := setReceiver_keptBut s (.opened (flagMarksOpened ok))
  have hbusy := portBusy_iff (s.setReceiver (.opened (flagMarksOpened ok)))
  have hfree := not_portBusy_iff (s.setReceiver (.opened (flagMarksOpened ok)))
  refine ⟨fun hignored => ?_, fun hn hlong hb => ?_, fun status hn hidle hnone hstatus => ?_,
    fun haborted hn hfour hfits hgood hidle hnone => ?_⟩
  · rw [judgeFlag_ignored (hignored.imp (mt hnames.2) id)] at hexec
    exact exec_setsReceiver hexec
  · rw [receive_busy (judgeFlag_ne_ignored (hnames.1 hn) hlong) (hbusy.2 hb)] at hexec
    exact ⟨_, hexec, (KeptBut.refl _ s).setLink _ (by simp), rfl⟩
  · rw [hcheck] at hstatus
    rw [judgeFlag_notTaken (hnames.1 hn) hstatus, receive_notTaken _ _ (hfree.2 ⟨hidle, hnone⟩)] at hexec
    exact ⟨_, hexec, (KeptBut.refl _ s).setLink _ (by simp), rfl⟩
  · subst haborted
    rw [judgeFlag_taken (hnames.1 hn) hfour hfits (mt hcheck.2 hgood),
      receive_taken _ _ (hfree.2 ⟨hidle, hnone⟩)] at hexec
    refine ⟨fun hcode => ?_, fun c hcode => ?_⟩
    · rw [dealFrame_unknown (ofByte_none _ hcode)] at hexec
      exact ⟨_, hexec, hkept.setLink_quiet rfl rfl rfl, rfl⟩
    · rw [← hcode] at hexec ⊢
      refine ⟨fun ha => ?_, fun ha => ?_⟩
      · rw [dealFrame_wrongMode (ofByte_byte c) (by exact ha)] at hexec
        exact ⟨_, hexec, hkept.setLink_quiet rfl rfl rfl, rfl⟩
      · rw [dealFrame_acting (ofByte_byte c) (by exact ha)] at hexec
        exact ⟨_, hexec, hkept.setLink_quiet rfl rfl rfl, rfl⟩

end Sys2Proof.Machine
end

section
/-! PROOFS. The frame on LINK_TX. -/

namespace Sys2Proof.Machine

/-- A content byte is escaped where it is a flag or an escape character (R162). -/
theorem escapeByte_eq (b : Byte) :
    escapeByte b = if b = 0x7E#8 ∨ b = 0x7D#8 then [0x7D#8, b ^^^ 0x20#8] else [b] := by
  unfold escapeByte
  simp only [Bool.or_eq_true, decide_eq_true_eq]
  rfl

/-- The shift of the check register, by its top bit (R163). -/
theorem checkShift_eq (r : Word) : checkShift r = if r.getLsbD 15 then (r <<< 1) ^^^ 0x1021#16 else r <<< 1 := by
  rw [checkShift, BitVec.msb_eq_getLsbD_last]

/-- A byte is taken into the check register by eight shifts (R163). -/
theorem checkByte_eq (r : Word) (b : Byte) : checkByte r b =
    (List.range 8).foldl (fun r _ => if r.getLsbD 15 then (r <<< 1) ^^^ 0x1021#16 else r <<< 1)
      (r ^^^ (b.zeroExtend 16 <<< 8)) := by
  simp only [← checkShift_eq]
  rfl

theorem result_byte_mem (r : ResultCode) : (r, r.byte) ∈ resultCodes := by cases r <;> decide

theorem command_byte_mem (c : CommandCode) : (c, c.byte) ∈ commandCodes := by cases c <;> decide

/-- The content of an answer's frame, in the words of the statement (R167). -/
theorem linkTxFrame_eq {s : State} {a : Answer} (h : s.link.answer = some a) :
    s.linkTxFrame = some (frameOf (a.content s.straps)) := by
  rw [State.linkTxFrame, h]
  rfl

/-- Settles O60: the parts of the frame, by what is said of each byte. -/
theorem answersAreFramed : Obligations.AnswersAreFramed := by
  refine ⟨fun s h => ?_, fun s a h => ?_, rfl, result_byte_mem, command_byte_mem, rfl, fun bytes b => ?_⟩
  · rw [State.linkTxFrame, h]
    rfl
  · obtain ⟨hframe, hcheck, haborted, hlong, hrest⟩ := statusByte_bits a.status
    refine ⟨_, _, _, ?_, rfl, answerAddress s.straps, hframe, hcheck, haborted, hlong, hrest, payload_length a.payload⟩
    rw [linkTxFrame_eq h]
    simp only [← escapeByte_eq]
    rfl
  · rw [checkOf_append, checkByte_eq]

end Sys2Proof.Machine
end

section
/-! PROOFS. What RESET_N held low leaves, and what a mode refuses. -/

namespace Sys2Proof.Machine

/-! ### RESET_N held low -/

/-- A row under `unlessHeld`, with RESET_N held low. -/
theorem unlessHeld_held {s u : State} (h : s.resetHeld = true) : unlessHeld s u = .next s := by
  simp [unlessHeld, h]

/-- Every event row but the edges of RESET_N and the power-on is an input that the part takes unless RESET_N is held
low (R183). -/
theorem exec_event_unlessHeld {i : Instr} (hc : i.code? = none)
    (hreset : ∀ straps, i ≠ .pinReset straps ∧ i ≠ .powerOn straps) (hrel : i ≠ .resetNRelease) (s : State) :
    ∃ u, exec i s = unlessHeld s u := by
  cases i with
  | start | run | stby | hold | stop | reset | rdstat | setcal | setpos | setfix | rdpos | openr | putp | contp
  | closer | abandr | wdraw | wdsect | clrtab | rdrec | rdslot | findat | tsum | cover | setcyc | setcomp | settrav | rdcomp
  | setlim | rdcar | setbus | ldplan | canplan | canstby | xchg | canxchg | rdxchg | restore | rdatt | setmask =>
    exact nomatch hc
  | odometerPulse | fixIntervalExpiry | holdExpiry | markerStrobe | markerMessage | markerMessageCutShort | markerByte
  | fence | planEntryServed | manualExchangeStart | frameSent | replyReceived | replyCutShort | replyTimeout
  | settlingDone | replyStartBit | replyByteTaken | linkCharacter | frameClosed | frameAborted | answerSent
  | softwareReset =>
    exact ⟨_, rfl⟩
  | pinReset straps => exact absurd rfl (hreset straps).1
  | powerOn straps => exact absurd rfl (hreset straps).2
  | resetNRelease => exact absurd rfl hrel

/-- Settles O4: a link command row runs its block and an event row is an input, neither of which is taken. -/
theorem heldResetTakesNothing : Obligations.HeldResetTakesNothing := by
  intro i s hheld hreset hrel
  cases hc : i.code? with
  | some c =>
    obtain ⟨owner, hexec, _⟩ := runsBlock_of_code hc
    exact (hexec s).trans (runCommand_held owner hheld)
  | none =>
    obtain ⟨u, hexec⟩ := exec_event_unlessHeld hc hreset hrel s
    exact hexec.trans (unlessHeld_held hheld)

/-! ### Commands in a mode not marked for them -/

/-- The modes of a command are those of the one row of the table that has it (R176). -/
theorem available_eq_availability (c : CommandCode) (m : Mode) :
    c.available m = availability.any fun row => row.1.contains c && row.2.contains m := by
  cases c <;> cases m <;> rfl

/-- Settles O6: the table command by command and mode by mode, and the refusal that the port makes before the block is
asked. -/
theorem unavailableCommandsAreRefused : Obligations.UnavailableCommandsAreRefused := by
  refine ⟨available_eq_availability, fun i s c hc hs ha => ?_⟩
  obtain ⟨owner, hexec, _⟩ := runsBlock_of_code hc
  exact ⟨_, (hexec s).trans (runCommand_wrongMode owner hs hc ha),
    answered_of_takes _ _ hs hc (LinkKept.refl _), (KeptBut.refl [] (s.admitted c)).answer _ _⟩

end Sys2Proof.Machine
end

section
/-! PROOFS. START, RUN, STBY and HOLD. -/

namespace Sys2Proof.Machine

/-- A command row that its block answers, leaving another Mode Control. -/
theorem runCommand_sets_mode {c : CommandCode} {i : Instr} {owner : State → CommandResult} {s : State}
    {x : ModeControl} {r : ResultCode} {p : AnswerPayload} (hs : s.takes i) (hi : i.code? = some c)
    (ha : c.available s.mode.mode = true)
    (ho : owner (s.admitted c) = { state := (s.admitted c).setMode x, result := r, payload := p }) :
    ∃ t, runCommand c i owner s = .next t ∧ Answered s t c r p ∧ KeptBut [.mode] s t ∧ t.mode = x :=
  runCommand_answers (Q := fun t => t.mode = x) _ hs hi ha ho (LinkKept.refl (s.admitted c))
    ((KeptBut.refl _ (s.admitted c)).setMode x (by simp)) rfl

/-! ### START -/

theorem actStart_noComposition {s : State} (h : s.demand.composition = none) :
    actStart () s = .refuse s .noComposition := by
  unfold actStart
  rw [h]

theorem actStart_done {s : State} {c : Composition} (h : s.demand.composition = some c) :
    actStart () s = .done s.startCycling := by
  unfold actStart
  rw [h]

/-- What START leaves of the part (R177). -/
theorem keptBut_startCycling (s : State) : KeptBut [.mode, .timer, .position] s s.startCycling :=
  (((KeptBut.refl _ s).setMode _ (by simp)).setTimer _ (by simp)).setPosition _ (by simp)

/-- Settles O19: the block asks for a composition alone, and with one replaces the three parts. -/
theorem startBeginsCycling : Obligations.StartBeginsCycling := by
  intro s hs hconfig
  have ha : CommandCode.start.available s.mode.mode = true := decide_eq_true hconfig
  refine ⟨fun hnone => ?_, fun c hc => ?_⟩
  · exact runCommand_answers_unchanged (owner := actStart ()) hs rfl ha (actStart_noComposition hnone)
  · exact runCommand_answers (owner := actStart ()) _ hs rfl ha (actStart_done hc) (LinkKept.refl (s.admitted .start))
      (keptBut_startCycling _) ⟨rfl, rfl, rfl⟩

/-! ### RUN and STBY -/

section
variable {s : State}

theorem actRun_already (h : s.mode.mode = .running) : actRun () s = .refuse s .already := if_pos h

theorem actRun_done (h : s.mode.mode ≠ .running) : actRun () s = .done (s.enterMode .running) := if_neg h

theorem actStby_already (h : s.mode.mode = .standby) : actStby () s = .refuse s .already := if_pos h

theorem actStby_done (h : s.mode.mode ≠ .standby) : actStby () s = .done (s.enterMode .standby) := if_neg h

end

/-- Settles O20: either the mode is the one asked for, or it alone is replaced. -/
theorem runAndStandbyChangeTheMode : Obligations.RunAndStandbyChangeTheMode := by
  refine ⟨fun s hs hconfig => ?_, fun s hs hconfig => ?_⟩
  · have ha : CommandCode.run.available s.mode.mode = true := decide_eq_true hconfig
    refine ⟨fun hm => ?_, fun hm => ?_⟩
    · exact runCommand_answers_unchanged (owner := actRun ()) hs rfl ha (actRun_already hm)
    · exact runCommand_sets_mode (owner := actRun ()) hs rfl ha (actRun_done hm)
  · have ha : CommandCode.stby.available s.mode.mode = true := decide_eq_true hconfig
    refine ⟨fun hm => ?_, fun hm => ?_⟩
    · exact runCommand_answers_unchanged (owner := actStby ()) hs rfl ha (actStby_already hm)
    · exact runCommand_sets_mode (owner := actStby ()) hs rfl ha (actStby_done hm)

/-! ### HOLD -/

theorem actHold_badParam {d : Nat} (h : 5000 < d) (s : State) : actHold d s = .refuse s .badParam := if_pos h

theorem actHold_done {d : Nat} (h : d ≤ 5000) (s : State) : actHold d s =
    { state := s.setMode { s.mode with mode := .hold, holdDistance := d, holdTravelled := 0 }
      result := .done
      payload := .value d } := if_neg (Nat.not_lt.2 h)

/-- Settles O21: the two branches of HOLD's act. -/
theorem holdSetsItsDistance : Obligations.HoldSetsItsDistance := by
  intro s d hs hrunning
  have ha : CommandCode.hold.available s.mode.mode = true := decide_eq_true hrunning
  refine ⟨fun hd => ?_, fun hd => ?_⟩
  · exact runCommand_answers_unchanged (owner := actHold d) hs rfl ha (actHold_badParam hd _)
  · exact runCommand_sets_mode (owner := actHold d) hs rfl ha (actHold_done hd _)

end Sys2Proof.Machine
end

section
/-! PROOFS. A step takes the row at the front of the queue, and no row stops the part. -/

namespace Sys2Proof.Machine

/-! ### The queue (log 1) -/

/-- A step takes the row at the front of the queue. -/
theorem step_of_pending_cons {s : State} {c : Instr} {rest : List Instr} (h : s.pending = c :: rest) :
    step s = exec c (s.setPending rest) := by
  unfold step
  rw [h]

/-- With an empty queue the part idles. -/
theorem step_of_pending_nil {s : State} (h : s.pending = []) : step s = .next s := by
  unfold step
  rw [h]

/-- Settles O1: the queue's equation for a row in front. -/
theorem stepTakesTheFrontCommand : Obligations.StepTakesTheFrontCommand := fun _ _ _ => step_of_pending_cons

/-! ### Every row answers a next state -/

/-- An input that RESET_N may block answers a next state either way (R183). -/
theorem unlessHeld_next (s u : State) : ∃ t, unlessHeld s u = .next t := by
  cases hr : s.resetHeld with
  | true => exact ⟨s, unlessHeld_held hr⟩
  | false => exact ⟨u, unlessHeld_released hr⟩

/-- A command row answers a next state: ignored, acted on, refused or dropped (R165, R166, R183). -/
theorem runCommand_next (c : CommandCode) (i : Instr) (owner : State → CommandResult) (s : State) :
    ∃ t, runCommand c i owner s = .next t := unlessHeld_next s _

/-- An event row answers a next state: an edge of RESET_N and the power-on at once, any other as an input. -/
theorem exec_event_next {i : Instr} (hc : i.code? = none) (s : State) : ∃ t, exec i s = .next t := by
  by_cases hreset : ∃ straps, i = .pinReset straps ∨ i = .powerOn straps
  · obtain ⟨straps, rfl | rfl⟩ := hreset
    · exact ⟨(s.powerOnValues straps).setResetHeld true, rfl⟩
    · exact ⟨s.powerOnValues straps, rfl⟩
  · by_cases hrel : i = .resetNRelease
    · subst hrel
      exact ⟨s.setResetHeld false, rfl⟩
    · have hother : ∀ straps, i ≠ .pinReset straps ∧ i ≠ .powerOn straps := fun straps =>
        ⟨fun h => hreset ⟨straps, .inl h⟩, fun h => hreset ⟨straps, .inr h⟩⟩
      obtain ⟨u, hexec⟩ := exec_event_unlessHeld hc hother hrel s
      rw [hexec]
      exact unlessHeld_next s u

/-- Every row answers a next state: a link command row through its block, an event row as it comes. -/
theorem exec_next (i : Instr) (s : State) : ∃ t, exec i s = .next t := by
  cases hc : i.code? with
  | some c =>
    obtain ⟨owner, hexec, _⟩ := runsBlock_of_code hc
    rw [hexec]
    exact runCommand_next c i owner s
  | none => exact exec_event_next hc s

/-- Every step answers a next state. -/
theorem step_next (s : State) : ∃ t, step s = .next t := by
  cases hp : s.pending with
  | nil => exact ⟨s, step_of_pending_nil hp⟩
  | cons c rest =>
    rw [step_of_pending_cons hp]
    exact exec_next c _

/-- Settles O2: no row stops the part, so neither does a step, and an empty queue leaves the state. -/
theorem nothingStopsThePart : Obligations.NothingStopsThePart := ⟨exec_next, step_next, fun _ => step_of_pending_nil⟩

end Sys2Proof.Machine
end
